-- ==== Sys2Proof/Word.lean ====
section
/-! DEFINITION. The word types of the CHIP-8 core and their plainest arithmetic (00_scope.md R10). -/

namespace Sys2Proof

/-- `Byte` of R10: an unsigned 8-bit value. -/
abbrev Byte := BitVec 8

/-- `Word` of R10: an unsigned 16-bit value (an instruction word, `I`, `pc`, a return address). -/
abbrev Word := BitVec 16

/-- A 4-bit half-byte of an instruction word (R12 "Nibble"). -/
abbrev Nibble := BitVec 4

/-- The 12-bit address operand `nnn` (R52). -/
abbrev Addr := BitVec 12

/-- A register number, `x` or `y` of R52: it selects `V[0]` to `V[15]`. -/
abbrev Reg := Fin 16

/-- The key states of one step: `keys[k]` of R25, true when key `k` is pressed. -/
abbrev Keys := Vector Bool 16

/-- The 64 by 32 frame buffer of R19: `display[r][c]`, row `r` first. -/
abbrev Display := Vector (Vector Bool 64) 32

end Sys2Proof
end

