-- ==== Sys2Proof/Config.lean ====
section
/-! DEFINITION. What is fixed for one machine: the constants of R7, the parameters of R9 that the spec
leaves open, and the free values (inputs no rule constrains). -/

namespace Sys2Proof

/-- `FETCH_ALIGNMENT` of R9 (decision D5). -/
inductive FetchAlignment where
  | strict
  | relaxed
deriving DecidableEq, Repr

/-- `SHIFT_SOURCE` of R9 (decision D9). -/
inductive ShiftSource where
  | vx
  | vy
deriving DecidableEq, Repr

/-- `KEY_INDEX_POLICY` of R9 (decision D15). -/
inductive KeyIndexPolicy where
  | fault
  | mask
deriving DecidableEq, Repr

/-- `SPRITE_EDGE` of R9 (decision D21). -/
inductive SpriteEdge where
  | clip
  | wrap
deriving DecidableEq, Repr

/-- The nine parameters of R9. A configuration is chosen when the machine is constructed; nothing
changes it afterwards. -/
structure Config where
  /-- `ADMIT_GK_OPCODES` -/
  admitGk : Bool
  /-- `FETCH_ALIGNMENT` -/
  fetchAlignment : FetchAlignment
  /-- `FONT_LOADED` -/
  fontLoaded : Bool
  /-- `FONT_BASE` -/
  fontBase : Nat
  /-- `SHIFT_SOURCE` -/
  shiftSource : ShiftSource
  /-- `LOGIC_VF_RESET` -/
  logicVfReset : Bool
  /-- `LOADSTORE_I_INCREMENT` -/
  loadStoreIIncrement : Bool
  /-- `KEY_INDEX_POLICY` -/
  keyIndexPolicy : KeyIndexPolicy
  /-- `SPRITE_EDGE` -/
  spriteEdge : SpriteEdge
deriving DecidableEq, Repr

/-- The default column of R9. -/
def Config.default : Config :=
  { admitGk := true, fetchAlignment := .strict, fontLoaded := true, fontBase := 0x000,
    shiftSource := .vx, logicVfReset := false, loadStoreIIncrement := false,
    keyIndexPolicy := .fault, spriteEdge := .clip }

/-- R9: `FONT_BASE` is "any address with `FONT_BASE + 79 <= 0x1FF`". -/
def Config.valid (cfg : Config) : Bool := decide (cfg.fontBase + 79 ≤ 0x1FF)

/-- `ADDR_MAX` of R7. -/
def Config.addrMax : Nat := 0xFFF

/-- `PROG_ORIGIN` of R7 and R129. -/
def Config.progOrigin : Nat := 0x200

/-- What the host brings to one `step` call: the `tick_timers` calls it made since the previous
operation (R135: any number of them), the key states (R25) and the random draw (R64). -/
structure StepInput where
  ticks : Nat
  keys : Keys
  rnd : Byte
deriving DecidableEq, Repr

/-- An input with no tick, no key pressed and a draw of zero. -/
def StepInput.quiet : StepInput := { ticks := 0, keys := Vector.replicate 16 false, rnd := 0 }

/-- FREE VALUE (log entry 2): the ticks before the step that draws free input `n` (R135). -/
opaque Config.freeTicks : Nat → Nat

/-- FREE VALUE (log entry 2): the key states of the step that draws free input `n` (R25). -/
opaque Config.freeKeys : Nat → Keys

/-- FREE VALUE (log entry 2): the random byte of the step that draws free input `n` (R64). -/
opaque Config.freeRnd : Nat → Byte

/-- The `n`-th free input: nothing constrains any part of it. -/
def Config.freeInput (n : Nat) : StepInput :=
  { ticks := Config.freeTicks n, keys := Config.freeKeys n, rnd := Config.freeRnd n }

end Sys2Proof
end

