-- ==== Sys2Proof/Syntax.lean ====
section
/-! DEFINITION. The instructions: one constructor per row of spec/opcode_table.json, in the table's order. -/

namespace Sys2Proof

/-- The 35 instructions of the opcode table (30_encoding.md R56, R61). Operands are typed by their
field widths (R52): `x`, `y` registers, `kk` a byte, `nnn` a 12-bit address, `n` a count 0 to 15. -/
inductive Instr where
  /-- 0000 NOP (R70) -/
  | nop
  /-- 00E0 CLS (R101) -/
  | cls
  /-- 00EE RET (R71) -/
  | ret
  /-- 1nnn JP addr (R72) -/
  | jp (nnn : Addr)
  /-- 2nnn CALL addr (R73) -/
  | call (nnn : Addr)
  /-- 3xkk SE Vx, byte (R74) -/
  | seImm (x : Reg) (kk : Byte)
  /-- 4xkk SNE Vx, byte (R75) -/
  | sneImm (x : Reg) (kk : Byte)
  /-- 5xy0 SE Vx, Vy (R76) -/
  | seReg (x y : Reg)
  /-- 6xkk LD Vx, byte (R80) -/
  | ldImm (x : Reg) (kk : Byte)
  /-- 7xkk ADD Vx, byte (R81) -/
  | addImm (x : Reg) (kk : Byte)
  /-- 8xy0 LD Vx, Vy (R82) -/
  | ldReg (x y : Reg)
  /-- 8xy1 OR Vx, Vy (R83) -/
  | orReg (x y : Reg)
  /-- 8xy2 AND Vx, Vy (R84) -/
  | andReg (x y : Reg)
  /-- 8xy3 XOR Vx, Vy (R85) -/
  | xorReg (x y : Reg)
  /-- 8xy4 ADD Vx, Vy (R86) -/
  | addReg (x y : Reg)
  /-- 8xy5 SUB Vx, Vy (R87) -/
  | sub (x y : Reg)
  /-- 8xy6 SHR Vx, Vy (R88) -/
  | shr (x y : Reg)
  /-- 8xy7 SUBN Vx, Vy (R89) -/
  | subn (x y : Reg)
  /-- 8xyE SHL Vx, Vy (R90) -/
  | shl (x y : Reg)
  /-- 9xy0 SNE Vx, Vy (R77) -/
  | sneReg (x y : Reg)
  /-- Annn LD I, addr (R93) -/
  | ldI (nnn : Addr)
  /-- Bnnn JP V0, addr (R78) -/
  | jpV0 (nnn : Addr)
  /-- Cxkk RND Vx, byte (R91) -/
  | rnd (x : Reg) (kk : Byte)
  /-- Dxyn DRW Vx, Vy, nibble (R103) -/
  | drw (x y : Reg) (n : Fin 16)
  /-- Ex9E SKP Vx (R107) -/
  | skp (x : Reg)
  /-- ExA1 SKNP Vx (R108) -/
  | sknp (x : Reg)
  /-- Fx07 LD Vx, DT (R110) -/
  | ldVxDt (x : Reg)
  /-- Fx0A LD Vx, K (R109) -/
  | ldVxK (x : Reg)
  /-- Fx15 LD DT, Vx (R111) -/
  | ldDtVx (x : Reg)
  /-- Fx18 LD ST, Vx (R112) -/
  | ldStVx (x : Reg)
  /-- Fx1E ADD I, Vx (R94) -/
  | addI (x : Reg)
  /-- Fx29 LD F, Vx (R95) -/
  | ldF (x : Reg)
  /-- Fx33 LD B, Vx (R96) -/
  | ldB (x : Reg)
  /-- Fx55 LD [I], Vx (R97) -/
  | ldMemVx (x : Reg)
  /-- Fx65 LD Vx, [I] (R98) -/
  | ldVxMem (x : Reg)
deriving DecidableEq, Repr

end Sys2Proof
end

