-- ==== Sys2Proof/WellFormed.lean ====
section
/-! DEFINITION. Which instructions a configuration has. Field widths are carried by the operand types; what is left
to check is the gate `ADMIT_GK_OPCODES` (R9, R59). -/

namespace Sys2Proof

/-- The seven rows marked GK in R56 ("gated_by" in the opcode table): 5xy0, 8xy0, 8xy7, 9xy0, Bnnn,
Cxkk, Fx0A (R59). -/
def Instr.isGk : Instr → Bool
  | .nop => false
  | .cls => false
  | .ret => false
  | .jp _ => false
  | .call _ => false
  | .seImm _ _ => false
  | .sneImm _ _ => false
  | .seReg _ _ => true
  | .ldImm _ _ => false
  | .addImm _ _ => false
  | .ldReg _ _ => true
  | .orReg _ _ => false
  | .andReg _ _ => false
  | .xorReg _ _ => false
  | .addReg _ _ => false
  | .sub _ _ => false
  | .shr _ _ => false
  | .subn _ _ => true
  | .shl _ _ => false
  | .sneReg _ _ => true
  | .ldI _ => false
  | .jpV0 _ => true
  | .rnd _ _ => true
  | .drw _ _ _ => false
  | .skp _ => false
  | .sknp _ => false
  | .ldVxDt _ => false
  | .ldVxK _ => true
  | .ldDtVx _ => false
  | .ldStVx _ => false
  | .addI _ => false
  | .ldF _ => false
  | .ldB _ => false
  | .ldMemVx _ => false
  | .ldVxMem _ => false

/-- An instruction is well-formed under `ADMIT_GK_OPCODES = admitGk` when the gate lets it in (R59). -/
def Instr.wellFormed (admitGk : Bool) (i : Instr) : Bool := admitGk || !i.isGk

end Sys2Proof
end

