-- ==== Sys2Proof/Decode.lean ====
section
/-! DEFINITION. The decoder, total on every 16-bit word (30_encoding.md R51 to R60), and after it the encoder and the rows
of the opcode table. -/

namespace Sys2Proof

/-- The result of decoding (R55): an instruction, or the word is `Unrecognized`. -/
inductive Decoded where
  | instr (i : Instr)
  | unrecognized
deriving DecidableEq, Repr

/-- `op` of R52: `w[15:12]`. -/
def opOf (w : Word) : Nibble := w.extractLsb' 12 4

/-- `x` of R52: `w[11:8]`, a register selector. -/
def xOf (w : Word) : Reg := (w.extractLsb' 8 4).toFin

/-- `y` of R52: `w[7:4]`, a register selector. -/
def yOf (w : Word) : Reg := (w.extractLsb' 4 4).toFin

/-- `n` of R52: `w[3:0]`. -/
def nOf (w : Word) : Nibble := w.extractLsb' 0 4

/-- `kk` of R52: `w[7:0]`. -/
def kkOf (w : Word) : Byte := w.extractLsb' 0 8

/-- `nnn` of R52: `w[11:0]`. -/
def nnnOf (w : Word) : Addr := w.extractLsb' 0 12

/-- First nibble 0 (R56, R60): three exact words, every other 0nnn unrecognized. -/
def decodeZero (w : Word) : Decoded :=
  if w = 0x0000#16 then .instr .nop
  else if w = 0x00E0#16 then .instr .cls
  else if w = 0x00EE#16 then .instr .ret
  else .unrecognized

/-- First nibble 5 or 9 (R56): only `n = 0` is an instruction. -/
def decodeCompare (n : Nibble) (i : Instr) : Decoded :=
  if n = 0x0#4 then .instr i else .unrecognized

/-- First nibble 8 (R56): the fourth nibble is the minor opcode. -/
def decodeAlu (x y : Reg) (n : Nibble) : Decoded :=
  match n with
  | 0x0#4 => .instr (.ldReg x y)
  | 0x1#4 => .instr (.orReg x y)
  | 0x2#4 => .instr (.andReg x y)
  | 0x3#4 => .instr (.xorReg x y)
  | 0x4#4 => .instr (.addReg x y)
  | 0x5#4 => .instr (.sub x y)
  | 0x6#4 => .instr (.shr x y)
  | 0x7#4 => .instr (.subn x y)
  | 0xE#4 => .instr (.shl x y)
  | _ => .unrecognized

/-- First nibble E (R56): the low byte is the minor opcode. -/
def decodeKey (x : Reg) (kk : Byte) : Decoded :=
  match kk with
  | 0x9E#8 => .instr (.skp x)
  | 0xA1#8 => .instr (.sknp x)
  | _ => .unrecognized

/-- First nibble F (R56): the low byte is the minor opcode. -/
def decodeMisc (x : Reg) (kk : Byte) : Decoded :=
  match kk with
  | 0x07#8 => .instr (.ldVxDt x)
  | 0x0A#8 => .instr (.ldVxK x)
  | 0x15#8 => .instr (.ldDtVx x)
  | 0x18#8 => .instr (.ldStVx x)
  | 0x1E#8 => .instr (.addI x)
  | 0x29#8 => .instr (.ldF x)
  | 0x33#8 => .instr (.ldB x)
  | 0x55#8 => .instr (.ldMemVx x)
  | 0x65#8 => .instr (.ldVxMem x)
  | _ => .unrecognized

/-- The decode map of R56 with every row admitted, by the first nibble. -/
def decodeAny (w : Word) : Decoded :=
  match opOf w with
  | 0x0#4 => decodeZero w
  | 0x1#4 => .instr (.jp (nnnOf w))
  | 0x2#4 => .instr (.call (nnnOf w))
  | 0x3#4 => .instr (.seImm (xOf w) (kkOf w))
  | 0x4#4 => .instr (.sneImm (xOf w) (kkOf w))
  | 0x5#4 => decodeCompare (nOf w) (.seReg (xOf w) (yOf w))
  | 0x6#4 => .instr (.ldImm (xOf w) (kkOf w))
  | 0x7#4 => .instr (.addImm (xOf w) (kkOf w))
  | 0x8#4 => decodeAlu (xOf w) (yOf w) (nOf w)
  | 0x9#4 => decodeCompare (nOf w) (.sneReg (xOf w) (yOf w))
  | 0xA#4 => .instr (.ldI (nnnOf w))
  | 0xB#4 => .instr (.jpV0 (nnnOf w))
  | 0xC#4 => .instr (.rnd (xOf w) (kkOf w))
  | 0xD#4 => .instr (.drw (xOf w) (yOf w) (nOf w).toFin)
  | 0xE#4 => decodeKey (xOf w) (kkOf w)
  | _ => decodeMisc (xOf w) (kkOf w)

/-- The gate of R59: a row the configuration does not admit is unrecognized. -/
def gate (admitGk : Bool) : Decoded → Decoded
  | .instr i => if i.wellFormed admitGk then .instr i else .unrecognized
  | .unrecognized => .unrecognized

/-- `decode` of R55, total on every word. -/
def decode (admitGk : Bool) (w : Word) : Decoded := gate admitGk (decodeAny w)

/-- The instruction word of two consecutive bytes, big-endian (R43): the byte at the lower address is
bits 15:8. -/
def wordOfBytes (hi lo : Byte) : Word := hi ++ lo

/-- The two bytes of a word in memory order (R43). -/
def bytesOfWord (w : Word) : List Byte := [w.extractLsb' 8 8, w.extractLsb' 0 8]

/-- The host's name for the decoder: the instruction read from a word of the opcode table, whose only
word is the instruction word; the default configuration admits all 35 rows (R9). -/
def decodeTableWord (nbits w : Nat) : Option Instr :=
  match decode Config.default.admitGk (BitVec.ofNat 16 (w % 2 ^ nbits)) with
  | .instr i => some i
  | .unrecognized => none

/-! ### The encoder -/

/-- The 4-bit field of a register number or count. -/
def nib (r : Fin 16) : Nibble := BitVec.ofFin r

/-- Format `NNN` of R54: `op aaaa aaaa aaaa`. -/
def encNNN (op : Nibble) (nnn : Addr) : Word := op ++ nnn

/-- Format `XKK` of R54: `op xxxx kkkk kkkk`; with a fixed `kk` also format `X`. -/
def encXKK (op : Nibble) (x : Reg) (kk : Byte) : Word := op ++ nib x ++ kk

/-- Formats `XY` and `XYN` of R54: `op xxxx yyyy nnnn`. -/
def encXYN (op : Nibble) (x y : Reg) (n : Nibble) : Word := op ++ nib x ++ nib y ++ n

/-- The word of an instruction, from the encoding column of the opcode table. -/
def encode : Instr → Word
  | .nop => 0x0000#16
  | .cls => 0x00E0#16
  | .ret => 0x00EE#16
  | .jp nnn => encNNN 0x1#4 nnn
  | .call nnn => encNNN 0x2#4 nnn
  | .seImm x kk => encXKK 0x3#4 x kk
  | .sneImm x kk => encXKK 0x4#4 x kk
  | .seReg x y => encXYN 0x5#4 x y 0x0#4
  | .ldImm x kk => encXKK 0x6#4 x kk
  | .addImm x kk => encXKK 0x7#4 x kk
  | .ldReg x y => encXYN 0x8#4 x y 0x0#4
  | .orReg x y => encXYN 0x8#4 x y 0x1#4
  | .andReg x y => encXYN 0x8#4 x y 0x2#4
  | .xorReg x y => encXYN 0x8#4 x y 0x3#4
  | .addReg x y => encXYN 0x8#4 x y 0x4#4
  | .sub x y => encXYN 0x8#4 x y 0x5#4
  | .shr x y => encXYN 0x8#4 x y 0x6#4
  | .subn x y => encXYN 0x8#4 x y 0x7#4
  | .shl x y => encXYN 0x8#4 x y 0xE#4
  | .sneReg x y => encXYN 0x9#4 x y 0x0#4
  | .ldI nnn => encNNN 0xA#4 nnn
  | .jpV0 nnn => encNNN 0xB#4 nnn
  | .rnd x kk => encXKK 0xC#4 x kk
  | .drw x y n => encXYN 0xD#4 x y (nib n)
  | .skp x => encXKK 0xE#4 x 0x9E#8
  | .sknp x => encXKK 0xE#4 x 0xA1#8
  | .ldVxDt x => encXKK 0xF#4 x 0x07#8
  | .ldVxK x => encXKK 0xF#4 x 0x0A#8
  | .ldDtVx x => encXKK 0xF#4 x 0x15#8
  | .ldStVx x => encXKK 0xF#4 x 0x18#8
  | .addI x => encXKK 0xF#4 x 0x1E#8
  | .ldF x => encXKK 0xF#4 x 0x29#8
  | .ldB x => encXKK 0xF#4 x 0x33#8
  | .ldMemVx x => encXKK 0xF#4 x 0x55#8
  | .ldVxMem x => encXKK 0xF#4 x 0x65#8

/-! ### The opcode table's rows -/

/-- One row of spec/opcode_table.json: `match`, `mask` and whether the row is gated (R59). -/
structure TableRow where
  mnemonic : String
  pattern : Word
  mask : Word
  gk : Bool
deriving DecidableEq, Repr

/-- A word is on a row when it agrees with the pattern under the mask. -/
def TableRow.matches (r : TableRow) (w : Word) : Bool := decide (w &&& r.mask = r.pattern)

/-- The row an instruction stands for: mnemonic, match and mask as spec/opcode_table.json has them. -/
def Instr.row : Instr → TableRow
  | .nop => ⟨"NOP", 0x0000#16, 0xFFFF#16, false⟩
  | .cls => ⟨"CLS", 0x00E0#16, 0xFFFF#16, false⟩
  | .ret => ⟨"RET", 0x00EE#16, 0xFFFF#16, false⟩
  | .jp _ => ⟨"JP", 0x1000#16, 0xF000#16, false⟩
  | .call _ => ⟨"CALL", 0x2000#16, 0xF000#16, false⟩
  | .seImm _ _ => ⟨"SE_imm", 0x3000#16, 0xF000#16, false⟩
  | .sneImm _ _ => ⟨"SNE_imm", 0x4000#16, 0xF000#16, false⟩
  | .seReg _ _ => ⟨"SE_reg", 0x5000#16, 0xF00F#16, true⟩
  | .ldImm _ _ => ⟨"LD_imm", 0x6000#16, 0xF000#16, false⟩
  | .addImm _ _ => ⟨"ADD_imm", 0x7000#16, 0xF000#16, false⟩
  | .ldReg _ _ => ⟨"LD_reg", 0x8000#16, 0xF00F#16, true⟩
  | .orReg _ _ => ⟨"OR", 0x8001#16, 0xF00F#16, false⟩
  | .andReg _ _ => ⟨"AND", 0x8002#16, 0xF00F#16, false⟩
  | .xorReg _ _ => ⟨"XOR", 0x8003#16, 0xF00F#16, false⟩
  | .addReg _ _ => ⟨"ADD_reg", 0x8004#16, 0xF00F#16, false⟩
  | .sub _ _ => ⟨"SUB", 0x8005#16, 0xF00F#16, false⟩
  | .shr _ _ => ⟨"SHR", 0x8006#16, 0xF00F#16, false⟩
  | .subn _ _ => ⟨"SUBN", 0x8007#16, 0xF00F#16, true⟩
  | .shl _ _ => ⟨"SHL", 0x800E#16, 0xF00F#16, false⟩
  | .sneReg _ _ => ⟨"SNE_reg", 0x9000#16, 0xF00F#16, true⟩
  | .ldI _ => ⟨"LD_I", 0xA000#16, 0xF000#16, false⟩
  | .jpV0 _ => ⟨"JP_V0", 0xB000#16, 0xF000#16, true⟩
  | .rnd _ _ => ⟨"RND", 0xC000#16, 0xF000#16, true⟩
  | .drw _ _ _ => ⟨"DRW", 0xD000#16, 0xF000#16, false⟩
  | .skp _ => ⟨"SKP", 0xE09E#16, 0xF0FF#16, false⟩
  | .sknp _ => ⟨"SKNP", 0xE0A1#16, 0xF0FF#16, false⟩
  | .ldVxDt _ => ⟨"LD_Vx_DT", 0xF007#16, 0xF0FF#16, false⟩
  | .ldVxK _ => ⟨"LD_Vx_K", 0xF00A#16, 0xF0FF#16, true⟩
  | .ldDtVx _ => ⟨"LD_DT_Vx", 0xF015#16, 0xF0FF#16, false⟩
  | .ldStVx _ => ⟨"LD_ST_Vx", 0xF018#16, 0xF0FF#16, false⟩
  | .addI _ => ⟨"ADD_I", 0xF01E#16, 0xF0FF#16, false⟩
  | .ldF _ => ⟨"LD_F", 0xF029#16, 0xF0FF#16, false⟩
  | .ldB _ => ⟨"LD_B", 0xF033#16, 0xF0FF#16, false⟩
  | .ldMemVx _ => ⟨"LD_mem_Vx", 0xF055#16, 0xF0FF#16, false⟩
  | .ldVxMem _ => ⟨"LD_Vx_mem", 0xF065#16, 0xF0FF#16, false⟩

/-- One instruction of each row, in the table's order. -/
def tableInstrs : List Instr :=
  [.nop, .cls, .ret, .jp 0, .call 0, .seImm 0 0, .sneImm 0 0, .seReg 0 0, .ldImm 0 0, .addImm 0 0] ++
  [.ldReg 0 0, .orReg 0 0, .andReg 0 0, .xorReg 0 0, .addReg 0 0, .sub 0 0, .shr 0 0, .subn 0 0] ++
  [.shl 0 0, .sneReg 0 0, .ldI 0, .jpV0 0, .rnd 0 0, .drw 0 0 0, .skp 0, .sknp 0, .ldVxDt 0] ++
  [.ldVxK 0, .ldDtVx 0, .ldStVx 0, .addI 0, .ldF 0, .ldB 0, .ldMemVx 0, .ldVxMem 0]

/-- The opcode table: its 35 rows. -/
def opcodeTable : List TableRow := tableInstrs.map Instr.row

end Sys2Proof
end

