-- ==== Sys2Proof/Machine/State.lean ====
section
/-! DEFINITION. The machine state (10_state.md R13 to R31), plain data. Beside the spec's own state it holds the model's ports:
the per-step inputs and outputs that R25 and R26 keep outside the spec's state, held here because `step` of Host/Core.lean
has no argument and no answer beside the state. -/

namespace Sys2Proof.Machine

/-- Memory contents that differ from reset (R23, R35): (address, byte) pairs, addresses strictly rising, none
equal to what an unlisted address reads as (`Memory.wf`). -/
abbrev Memory := List Host.Cell

/-- The seven fault kinds of 60_exceptions.md R114. -/
inductive FaultKind where
  /-- code 1: the word is none of R56's. -/
  | unrecognizedInstruction
  /-- code 2: 2nnn with `sp = 15`. -/
  | stackOverflow
  /-- code 3: 00EE with `sp = 0`. -/
  | stackUnderflow
  /-- code 4: fetch with `pc + 1 > 0xFFF`. -/
  | fetchOutOfBounds
  /-- code 5: fetch from an odd `pc` under STRICT. -/
  | misalignedFetch
  /-- code 6: a data byte above 0xFFF. -/
  | dataOutOfBounds
  /-- code 7: a key number above 15 under FAULT. -/
  | keyOutOfRange
deriving DecidableEq, Repr

/-- The fault record of R116. Its `code` is a function of its kind (`FaultRecord.code`). -/
structure FaultRecord where
  kind : FaultKind
  /-- the address the faulting step fetched from -/
  addr : Word
  /-- the fetched word; none where the fault came before the fetch -/
  word : Option Word
  detail : Word
deriving DecidableEq, Repr

/-- What a step returns to the host (R65). -/
inductive StepResult where
  | noUpdate
  | update (snapshot : Display)
  | faulted (record : FaultRecord)
deriving DecidableEq, Repr

/-- Where the instance stands in its life (R131, R132): `load` is admitted only when just constructed. -/
inductive Lifecycle where
  | constructed
  | loaded
  | running
deriving DecidableEq, Repr

/-- A duration of `num / den` seconds: `clock_speed` of R22. -/
structure Duration where
  num : Nat
  den : Nat
deriving DecidableEq, Repr

/-- The state. -/
structure State where
  /-- the parameters of R9, fixed at construction -/
  cfg : Config
  /-- `V[0]` to `V[15]` (R13); `V[15]` is VF (R14) -/
  v : Vector Byte 16
  /-- the index register `I` (R15) -/
  i : Word
  /-- the program counter (R16) -/
  pc : Word
  /-- the stack pointer (R18): how many return addresses are held -/
  sp : Fin 16
  /-- the return-address stack (R17) -/
  stack : Vector Word 16
  /-- the display buffer (R19) -/
  display : Display
  /-- the delay timer DT (R20) -/
  dt : Byte
  /-- the sound timer ST (R21) -/
  st : Byte
  /-- `clock_speed` (R22) -/
  clockSpeed : Duration
  /-- memory (R23) -/
  mem : Memory
  /-- the fault state (R24) -/
  fault : Option FaultRecord
  /-- the lifecycle the load rule tests (R131) -/
  lifecycle : Lifecycle
  /-- PORT: the key states of the step being run (R25) -/
  keys : Keys
  /-- PORT: the random draw of the step being run (R64) -/
  rnd : Byte
  /-- PORT: what the most recent step returned (R65) -/
  result : StepResult
  /-- PORT: the inputs of the coming steps, as far as they are known, next first (log entry 2) -/
  schedule : List StepInput
  /-- PORT: how many free inputs were drawn after the schedule ran out (log entry 2) -/
  draws : Nat
deriving DecidableEq, Repr

/-- Reasons for a step to stop outside the spec's own faults. There are none: every fault of R114 is taken as a next
state that holds its record (R116, R117), and no rule leaves a behaviour undefined, so nobody raises a
`Fault` and the type is empty. Safe. -/
inductive Fault where
deriving DecidableEq, Repr

/-- Reasons to have no meaning for an instruction. -/
inductive Refusal where
  /-- raised by an arm of `exec` whose instruction has no meaning yet (no arm is left so); safe -/
  | notModelled (mnemonic : String)
deriving DecidableEq, Repr

/-- The answer of a step or of a meaning. -/
abbrev Result := Host.Outcome State Fault Refusal

/-- The state right after construction under `cfg` with the given clock speed and known inputs: R29, R128.
Memory lists nothing, so every byte reads as its reset value (`resetByte`). -/
def State.initial (cfg : Config) (clockSpeed : Duration) (schedule : List StepInput) : State :=
  { cfg := cfg
    v := Vector.replicate 16 0
    i := 0
    pc := BitVec.ofNat 16 Config.progOrigin
    sp := 0
    stack := Vector.replicate 16 0
    display := Vector.replicate 32 (Vector.replicate 64 false)
    dt := 0
    st := 0
    clockSpeed := clockSpeed
    mem := []
    fault := none
    lifecycle := .constructed
    keys := Vector.replicate 16 false
    rnd := 0
    result := .noUpdate
    schedule := schedule
    draws := 0 }

/-- The state after reset: R29 at the default parameters of R9. DESIGN CHOICE (log entry 3): the clock frequency is
the 500 of R138's example, and the first step's input is the quiet one (log entry 2). -/
def State.reset : State :=
  State.initial Config.default { num := 1, den := 500 } [StepInput.quiet]

end Sys2Proof.Machine
end

