-- ==== Sys2Proof/Machine/Memory.lean ====
section
/-! DEFINITION. Memory (20_memory.md R35 to R50): reset contents with the font, byte reads and writes in canonical form,
and block transfers of consecutive bytes. -/

namespace Sys2Proof.Machine

/-- The five bytes of the glyph of digit `d`, top row first (R40's table). -/
def glyph (d : Nat) : List Byte :=
  match d with
  | 0x0 => [0xF0, 0x90, 0x90, 0x90, 0xF0]
  | 0x1 => [0x20, 0x60, 0x20, 0x20, 0x70]
  | 0x2 => [0xF0, 0x10, 0xF0, 0x80, 0xF0]
  | 0x3 => [0xF0, 0x10, 0xF0, 0x10, 0xF0]
  | 0x4 => [0x90, 0x90, 0xF0, 0x10, 0x10]
  | 0x5 => [0xF0, 0x80, 0xF0, 0x10, 0xF0]
  | 0x6 => [0xF0, 0x80, 0xF0, 0x90, 0xF0]
  | 0x7 => [0xF0, 0x10, 0x20, 0x40, 0x40]
  | 0x8 => [0xF0, 0x90, 0xF0, 0x90, 0xF0]
  | 0x9 => [0xF0, 0x90, 0xF0, 0x10, 0xF0]
  | 0xA => [0xF0, 0x90, 0xF0, 0x90, 0x90]
  | 0xB => [0xE0, 0x90, 0xE0, 0x90, 0xE0]
  | 0xC => [0xF0, 0x80, 0x80, 0x80, 0xF0]
  | 0xD => [0xE0, 0x90, 0x90, 0x90, 0xE0]
  | 0xE => [0xF0, 0x80, 0xF0, 0x80, 0xF0]
  | 0xF => [0xF0, 0x80, 0xF0, 0x80, 0x80]
  | _ => []

/-- What an address that nothing has written reads as: the reset contents of R40 (glyph `d` at
`FONT_BASE + 5*d`) and zero elsewhere (R29). -/
def resetByte (cfg : Config) (a : Nat) : Byte :=
  if cfg.fontLoaded && decide (cfg.fontBase ≤ a) then
    (glyph ((a - cfg.fontBase) / 5)).getD ((a - cfg.fontBase) % 5) 0
  else 0

/-- The byte listed for an address, if one is. -/
def Memory.lookup (a : Nat) : Memory → Option Byte
  | [] => none
  | (k, b) :: rest => if k = a then some b else Memory.lookup a rest

/-- `MemRead(a, 1)` of R36. -/
def Memory.read (cfg : Config) (m : Memory) (a : Nat) : Byte :=
  (Memory.lookup a m).getD (resetByte cfg a)

/-- List `b` at address `a`, keeping the addresses rising. -/
def Memory.insert (a : Nat) (b : Byte) : Memory → Memory
  | [] => [(a, b)]
  | (k, c) :: rest =>
    if a < k then (a, b) :: (k, c) :: rest
    else if a = k then (a, b) :: rest
    else (k, c) :: Memory.insert a b rest

/-- Take the entry of address `a` out. -/
def Memory.erase (a : Nat) : Memory → Memory
  | [] => []
  | (k, c) :: rest => if a = k then rest else (k, c) :: Memory.erase a rest

/-- `MemWrite(a, 1, b)` of R36, in canonical form: writing the reset value takes the entry out. -/
def Memory.write (cfg : Config) (m : Memory) (a : Nat) (b : Byte) : Memory :=
  if b = resetByte cfg a then Memory.erase a m else Memory.insert a b m

/-- The bytes at `base .. base + count - 1`, lowest address first. -/
def Memory.readBlock (cfg : Config) (m : Memory) (base : Nat) : Nat → List Byte
  | 0 => []
  | count + 1 => Memory.read cfg m base :: Memory.readBlock cfg m (base + 1) count

/-- Write the bytes at `base`, `base + 1` and so on, in that order. -/
def Memory.writeBlock (cfg : Config) (m : Memory) (base : Nat) : List Byte → Memory
  | [] => m
  | b :: rest => Memory.writeBlock cfg (Memory.write cfg m base b) (base + 1) rest

/-- All listed addresses are at least `low`, and they rise strictly. -/
def Memory.risingFrom (low : Nat) : Memory → Bool
  | [] => true
  | (k, _) :: rest => decide (low ≤ k) && Memory.risingFrom (k + 1) rest

/-- The canonical form: addresses strictly rising and inside the space of R35, no entry equal to what its address
reads as when unlisted. -/
def Memory.wf (cfg : Config) (m : Memory) : Bool :=
  Memory.risingFrom 0 m && m.all (fun cell => decide (cell.1 ≤ Config.addrMax ∧ cell.2 ≠ resetByte cfg cell.1))

end Sys2Proof.Machine
end

