-- ==== Sys2Proof/Machine/Ops.lean ====
section
/-! DEFINITION. The named operations over registers, stack, memory and display that the meanings share, taking a fault
(60_exceptions.md R113 to R118), and the fetch (30_encoding.md R62, R63). A meaning runs on the state after the fetch:
its `pc` is the address of the instruction plus 2 (R16). -/

namespace Sys2Proof.Machine

/-! ### Registers -/

/-- `V[x]` (R11, R13). -/
def State.readV (s : State) (x : Reg) : Byte := s.v[x]

/-- `V[x] <- b`. -/
def State.writeV (s : State) (x : Reg) (b : Byte) : State := { s with v := s.v.set x b }

/-- `I <- a`. -/
def State.setI (s : State) (a : Word) : State := { s with i := a }

/-- `pc <- a`; a target is not checked here (R69). -/
def State.setPc (s : State) (a : Word) : State := { s with pc := a }

/-- `DT <- b`. -/
def State.setDt (s : State) (b : Byte) : State := { s with dt := b }

/-- `ST <- b`. -/
def State.setSt (s : State) (b : Byte) : State := { s with st := b }

/-- `skip` of R11 when the condition holds: `pc <- trunc_16(pc + 2)`. -/
def State.skipIf (s : State) (c : Bool) : State := if c then s.setPc (s.pc + 2) else s

/-- `V[start] <- bytes[0]`, `V[start + 1] <- bytes[1]` and so on, in that order. -/
def loadRegs (v : Vector Byte 16) (start : Nat) : List Byte → Vector Byte 16
  | [] => v
  | b :: rest => loadRegs (v.setIfInBounds start b) (start + 1) rest

/-! ### The return-address stack (R17, R18) -/

/-- The push of R73: `sp <- sp + 1`, then `stack[sp] <- pc`. -/
def State.push (s : State) : State :=
  { s with sp := s.sp + 1, stack := s.stack.set (s.sp + 1 : Fin 16) s.pc }

/-- The pop of R71: `pc <- stack[sp]`, then `sp <- sp - 1`; the entry keeps its value. -/
def State.pop (s : State) : State := { s with pc := s.stack[s.sp], sp := s.sp - 1 }

/-! ### Memory -/

/-- One byte of memory (R36). -/
def State.readByte (s : State) (a : Nat) : Byte := Memory.read s.cfg s.mem a

/-- The `count` bytes from `base`. -/
def State.readBlock (s : State) (base count : Nat) : List Byte :=
  Memory.readBlock s.cfg s.mem base count

/-- Store consecutive bytes from `base`. -/
def State.writeBlock (s : State) (base : Nat) (bytes : List Byte) : State :=
  { s with mem := Memory.writeBlock s.cfg s.mem base bytes }

/-- The bounds check of R37 on `count` bytes from `base`: the first address of the range above 0xFFF, if the
range has one. Addresses are exact naturals, never wrapped. -/
def firstBad (base count : Nat) : Option Nat :=
  if count = 0 then none
  else if base + count - 1 > Config.addrMax then some (max base (Config.addrMax + 1))
  else none

/-! ### Display -/

/-- A new display, with `changed <- true`: the step returns a snapshot of it (R65). -/
def State.show (s : State) (d : Display) : State := { s with display := d, result := .update d }

/-! ### Taking a fault -/

/-- The numeric code of R114. -/
def FaultKind.code : FaultKind → Nat
  | .unrecognizedInstruction => 1
  | .stackOverflow => 2
  | .stackUnderflow => 3
  | .fetchOutOfBounds => 4
  | .misalignedFetch => 5
  | .dataOutOfBounds => 6
  | .keyOutOfRange => 7

/-- The three classes of R114's third column. -/
inductive FaultClass where
  | unrecognizedInstruction
  | resourceExhaustion
  | outOfBoundsAccess
deriving DecidableEq, Repr

/-- The class of a fault kind (R114). -/
def FaultKind.toClass : FaultKind → FaultClass
  | .unrecognizedInstruction => .unrecognizedInstruction
  | .stackOverflow => .resourceExhaustion
  | .stackUnderflow => .resourceExhaustion
  | .fetchOutOfBounds => .outOfBoundsAccess
  | .misalignedFetch => .outOfBoundsAccess
  | .dataOutOfBounds => .outOfBoundsAccess
  | .keyOutOfRange => .outOfBoundsAccess

/-- `code` of the record (R116). -/
def FaultRecord.code (r : FaultRecord) : Nat := r.kind.code

/-- Taking a fault in a step that has written nothing yet: the record becomes the fault state (R116), the step
returns `Faulted` (R65), and nothing else changes (R117). `s.pc` is the address fetched from. -/
def State.takeFault (s : State) (kind : FaultKind) (word : Option Word) (detail : Word) : State :=
  let r : FaultRecord := { kind := kind, addr := s.pc, word := word, detail := detail }
  { s with fault := some r, result := .faulted r }

/-- `raise Fault(kind, detail)` of R11 by the check of instruction `i`, which precedes every write of its own:
the advance of `pc` by the fetch is discarded (R117) and the fault is taken. The fetched word is `encode i`, since
every instruction has one word (DEDUCED, log entry 4). -/
def State.raiseFault (s : State) (i : Instr) (kind : FaultKind) (detail : Word) : State :=
  (s.setPc (s.pc - 2)).takeFault kind (some (encode i)) detail

/-! ### Fetch -/

/-- The fetch checks of R62, in their order: bounds, then alignment. -/
def State.fetchFault (s : State) : Option FaultKind :=
  if s.pc.toNat + 1 > Config.addrMax then some .fetchOutOfBounds
  else if s.cfg.fetchAlignment = .strict ∧ s.pc.toNat % 2 = 1 then some .misalignedFetch
  else none

/-- The big-endian word at `pc` (R43, R63). -/
def State.fetchWord (s : State) : Word :=
  wordOfBytes (s.readByte s.pc.toNat) (s.readByte (s.pc.toNat + 1))

/-- The rest of the fetch (R63): `pc <- trunc_16(a + 2)` and `changed <- false`. -/
def State.fetched (s : State) : State := { s with pc := s.pc + 2, result := .noUpdate }

/-- Place a word where the next fetch reads it (R43), if that place is in memory. -/
def State.placeWord (s : State) (w : Word) : State :=
  if s.pc.toNat + 1 > Config.addrMax then s else s.writeBlock s.pc.toNat (bytesOfWord w)

end Sys2Proof.Machine
end

