-- ==== Sys2Proof/Machine/Flags.lean ====
section
/-! DEFINITION. The flag values that instructions write to VF (10_state.md R14, 41_alu.md R92), and the one way a result and
its flag are written (R79). -/

namespace Sys2Proof.Machine

/-- VF, the flag register (R14). -/
def vf : Reg := 15

/-- A flag is written as the byte 0 or 1 (R14). -/
def flagByte (c : Bool) : Byte := if c then 1 else 0

/-- Carry out of `a + b` (R86, R92): the exact sum exceeds 255. -/
def carryFlag (a b : Byte) : Byte := flagByte (decide (a.toNat + b.toNat > 255))

/-- NOT borrow of `a - b` (R87, R92): `a >= b`. -/
def notBorrowFlag (a b : Byte) : Byte := flagByte (decide (a.toNat ≥ b.toNat))

/-- The bit a right shift drops: bit 0 (R88). -/
def shiftedOutRight (a : Byte) : Byte := flagByte (a.getLsbD 0)

/-- The bit a left shift drops: bit 7 (R90). -/
def shiftedOutLeft (a : Byte) : Byte := flagByte (a.getLsbD 7)

/-- R79: the result is written first and the flag last, so the flag wins when `x` is 15. -/
def State.writeWithFlag (s : State) (x : Reg) (result flag : Byte) : State :=
  (s.writeV x result).writeV vf flag

/-- The logic instructions: the result, then VF is cleared only under `LOGIC_VF_RESET` (R83 to R85). -/
def State.writeLogic (s : State) (x : Reg) (result : Byte) : State :=
  if s.cfg.logicVfReset then s.writeWithFlag x result 0 else s.writeV x result

end Sys2Proof.Machine
end

