-- ==== Sys2Proof/Machine/Operands.lean ====
section
/-! DEFINITION. The operand forms: immediates (R53), the shift source (R88, R90), glyph addresses (R95), decimal digits (R96),
key numbers (R106) and sprite positions (R103, R104). Register operands are `State.readV`, index-relative addresses are
`I + k` as exact naturals (R99). -/

namespace Sys2Proof.Machine

/-- `zext_16(nnn)` (R53). -/
def addrWord (nnn : Addr) : Word := nnn.setWidth 16

/-- `zext_16` of a byte (R10). -/
def byteWord (b : Byte) : Word := b.setWidth 16

/-- The operand of 8xy6 and 8xyE (R88, R90): `V[x]` or `V[y]`, by `SHIFT_SOURCE`. -/
def State.shiftOperand (s : State) (x y : Reg) : Byte :=
  match s.cfg.shiftSource with
  | .vx => s.readV x
  | .vy => s.readV y

/-- The address of a glyph (R95): `FONT_BASE + 5 * (v & 0x0F)`. -/
def glyphAddress (cfg : Config) (v : Byte) : Word :=
  BitVec.ofNat 16 (cfg.fontBase + 5 * (v &&& 0x0F).toNat)

/-- The decimal digits of a byte, hundreds first (R96). -/
def decimalDigits (v : Byte) : List Byte :=
  [BitVec.ofNat 8 (v.toNat / 100), BitVec.ofNat 8 (v.toNat / 10 % 10), BitVec.ofNat 8 (v.toNat % 10)]

/-- The key a register value selects (R106); none where the instruction faults. -/
def keyNumber (cfg : Config) (v : Byte) : Option (Fin 16) :=
  if h : v.toNat < 16 then some ⟨v.toNat, h⟩
  else
    match cfg.keyIndexPolicy with
    | .fault => none
    | .mask => some (v.extractLsb' 0 4).toFin

/-- The lowest pressed key at `k` or above, looking at `fuel` keys (R109). -/
def lowestKeyFrom (keys : Keys) (k : Nat) : Nat → Option Nat
  | 0 => none
  | fuel + 1 => if keys.getD k false then some k else lowestKeyFrom keys (k + 1) fuel

/-- `min { k | keys[k] = true }` of R109, if some key is pressed. -/
def lowestKey (keys : Keys) : Option Nat := lowestKeyFrom keys 0 16

/-- `place(R, C)` of R103 and R104: the pixel of a sprite bit, or none where it is off screen. -/
def place (edge : SpriteEdge) (row col : Nat) : Option (Fin 32 × Fin 64) :=
  match edge with
  | .clip => if h : row < 32 ∧ col < 64 then some (⟨row, h.1⟩, ⟨col, h.2⟩) else none
  | .wrap => some (⟨row % 32, Nat.mod_lt _ (by decide)⟩, ⟨col % 64, Nat.mod_lt _ (by decide)⟩)

end Sys2Proof.Machine
end

