-- ==== Sys2Proof/Machine/Alu.lean ====
section
/-! DEFINITION. Register loads and the arithmetic and logic unit (41_alu.md R79 to R92). Operands are read from the state before
any write (R79). -/

namespace Sys2Proof.Machine

/-- 6xkk LD Vx, byte (R80). -/
def execLdImm (x : Reg) (kk : Byte) (s : State) : Result := .next (s.writeV x kk)

/-- 7xkk ADD Vx, byte (R81): wraps, and VF is no flag here. -/
def execAddImm (x : Reg) (kk : Byte) (s : State) : Result := .next (s.writeV x (s.readV x + kk))

/-- 8xy0 LD Vx, Vy (R82). -/
def execLdReg (x y : Reg) (s : State) : Result := .next (s.writeV x (s.readV y))

/-- 8xy1 OR Vx, Vy (R83). -/
def execOr (x y : Reg) (s : State) : Result := .next (s.writeLogic x (s.readV x ||| s.readV y))

/-- 8xy2 AND Vx, Vy (R84). -/
def execAnd (x y : Reg) (s : State) : Result := .next (s.writeLogic x (s.readV x &&& s.readV y))

/-- 8xy3 XOR Vx, Vy (R85). -/
def execXor (x y : Reg) (s : State) : Result := .next (s.writeLogic x (s.readV x ^^^ s.readV y))

/-- 8xy4 ADD Vx, Vy (R86). -/
def execAddReg (x y : Reg) (s : State) : Result :=
  .next (s.writeWithFlag x (s.readV x + s.readV y) (carryFlag (s.readV x) (s.readV y)))

/-- 8xy5 SUB Vx, Vy (R87). -/
def execSub (x y : Reg) (s : State) : Result :=
  .next (s.writeWithFlag x (s.readV x - s.readV y) (notBorrowFlag (s.readV x) (s.readV y)))

/-- 8xy6 SHR Vx, Vy (R88). -/
def execShr (x y : Reg) (s : State) : Result :=
  .next (s.writeWithFlag x (s.shiftOperand x y >>> 1) (shiftedOutRight (s.shiftOperand x y)))

/-- 8xy7 SUBN Vx, Vy (R89). -/
def execSubn (x y : Reg) (s : State) : Result :=
  .next (s.writeWithFlag x (s.readV y - s.readV x) (notBorrowFlag (s.readV y) (s.readV x)))

/-- 8xyE SHL Vx, Vy (R90). -/
def execShl (x y : Reg) (s : State) : Result :=
  .next (s.writeWithFlag x (s.shiftOperand x y <<< 1) (shiftedOutLeft (s.shiftOperand x y)))

/-- Cxkk RND Vx, byte (R91): `rnd & kk`, `rnd` the step's draw (R64). -/
def execRnd (x : Reg) (kk : Byte) (s : State) : Result := .next (s.writeV x (s.rnd &&& kk))

end Sys2Proof.Machine
end

