-- ==== Sys2Proof/Machine/Control.lean ====
section
/-! DEFINITION. Control transfer (40_control.md R69 to R78). -/

namespace Sys2Proof.Machine

/-- 0000 NOP (R70). -/
def execNop (s : State) : Result := .next s

/-- 00EE RET (R71). -/
def execRet (s : State) : Result :=
  if s.sp = 0 then .next (s.raiseFault .ret .stackUnderflow (BitVec.ofNat 16 s.sp.val))
  else .next s.pop

/-- 1nnn JP addr (R72). -/
def execJp (nnn : Addr) (s : State) : Result := .next (s.setPc (addrWord nnn))

/-- 2nnn CALL addr (R73). -/
def execCall (nnn : Addr) (s : State) : Result :=
  if s.sp = 15 then .next (s.raiseFault (.call nnn) .stackOverflow (BitVec.ofNat 16 s.sp.val))
  else .next (s.push.setPc (addrWord nnn))

/-- 3xkk SE Vx, byte (R74). -/
def execSeImm (x : Reg) (kk : Byte) (s : State) : Result := .next (s.skipIf (s.readV x == kk))

/-- 4xkk SNE Vx, byte (R75). -/
def execSneImm (x : Reg) (kk : Byte) (s : State) : Result := .next (s.skipIf (s.readV x != kk))

/-- 5xy0 SE Vx, Vy (R76). -/
def execSeReg (x y : Reg) (s : State) : Result := .next (s.skipIf (s.readV x == s.readV y))

/-- 9xy0 SNE Vx, Vy (R77). -/
def execSneReg (x y : Reg) (s : State) : Result := .next (s.skipIf (s.readV x != s.readV y))

/-- Bnnn JP V0, addr (R78). -/
def execJpV0 (nnn : Addr) (s : State) : Result :=
  .next (s.setPc (addrWord nnn + byteWord (s.readV 0)))

end Sys2Proof.Machine
end

