-- ==== Sys2Proof/Machine/IndexMemory.lean ====
section
/-! DEFINITION. Index register and memory transfers (42_index_memory.md R93 to R99). -/

namespace Sys2Proof.Machine

/-- Annn LD I, addr (R93). -/
def execLdI (nnn : Addr) (s : State) : Result := .next (s.setI (addrWord nnn))

/-- Fx1E ADD I, Vx (R94): wraps at 16 bits, no flag. -/
def execAddI (x : Reg) (s : State) : Result := .next (s.setI (s.i + byteWord (s.readV x)))

/-- Fx29 LD F, Vx (R95). -/
def execLdF (x : Reg) (s : State) : Result := .next (s.setI (glyphAddress s.cfg (s.readV x)))

/-- Fx33 LD B, Vx (R96). -/
def execLdB (x : Reg) (s : State) : Result :=
  match firstBad s.i.toNat 3 with
  | some bad => .next (s.raiseFault (.ldB x) .dataOutOfBounds (BitVec.ofNat 16 bad))
  | none => .next (s.writeBlock s.i.toNat (decimalDigits (s.readV x)))

/-- The last line of R97 and R98: `I <- trunc_16(base + x + 1)` under `LOADSTORE_I_INCREMENT`. -/
def State.advanceI (s : State) (x : Reg) : State :=
  if s.cfg.loadStoreIIncrement then s.setI (BitVec.ofNat 16 (s.i.toNat + x.val + 1)) else s

/-- Fx55 LD [I], Vx (R97). -/
def execLdMemVx (x : Reg) (s : State) : Result :=
  match firstBad s.i.toNat (x.val + 1) with
  | some bad => .next (s.raiseFault (.ldMemVx x) .dataOutOfBounds (BitVec.ofNat 16 bad))
  | none => .next ((s.writeBlock s.i.toNat (s.v.toList.take (x.val + 1))).advanceI x)

/-- Fx65 LD Vx, [I] (R98). -/
def execLdVxMem (x : Reg) (s : State) : Result :=
  match firstBad s.i.toNat (x.val + 1) with
  | some bad => .next (s.raiseFault (.ldVxMem x) .dataOutOfBounds (BitVec.ofNat 16 bad))
  | none =>
    .next (State.advanceI { s with v := loadRegs s.v 0 (s.readBlock s.i.toNat (x.val + 1)) } x)

end Sys2Proof.Machine
end

