-- ==== Sys2Proof/Machine/KeypadTimer.lean ====
section
/-! DEFINITION. Keypad and timer instructions (44_keypad_timer.md R106 to R112). -/

namespace Sys2Proof.Machine

/-- Ex9E SKP Vx (R107). -/
def execSkp (x : Reg) (s : State) : Result :=
  match keyNumber s.cfg (s.readV x) with
  | none => .next (s.raiseFault (.skp x) .keyOutOfRange (byteWord (s.readV x)))
  | some k => .next (s.skipIf s.keys[k])

/-- ExA1 SKNP Vx (R108). -/
def execSknp (x : Reg) (s : State) : Result :=
  match keyNumber s.cfg (s.readV x) with
  | none => .next (s.raiseFault (.sknp x) .keyOutOfRange (byteWord (s.readV x)))
  | some k => .next (s.skipIf (!s.keys[k]))

/-- Fx07 LD Vx, DT (R110). -/
def execLdVxDt (x : Reg) (s : State) : Result := .next (s.writeV x s.dt)

/-- Fx0A LD Vx, K (R109): the lowest pressed key, or the same instruction again. -/
def execLdVxK (x : Reg) (s : State) : Result :=
  .next (match lowestKey s.keys with
    | some k => s.writeV x (BitVec.ofNat 8 k)
    | none => s.setPc (s.pc - 2))

/-- Fx15 LD DT, Vx (R111). -/
def execLdDtVx (x : Reg) (s : State) : Result := .next (s.setDt (s.readV x))

/-- Fx18 LD ST, Vx (R112). -/
def execLdStVx (x : Reg) (s : State) : Result := .next (s.setSt (s.readV x))

end Sys2Proof.Machine
end

