-- ==== Sys2Proof/Machine/Screen.lean ====
section
/-! DEFINITION. The frame-buffer display controller and the collision detector (43_display.md R100 to R105). -/

namespace Sys2Proof.Machine

/-- The pixel at row `r`, column `c` (R11). -/
def Display.pixel (d : Display) (r : Fin 32) (c : Fin 64) : Bool := d[r][c]

/-- `display[r][c] <- b`. -/
def Display.setPixel (d : Display) (r : Fin 32) (c : Fin 64) (b : Bool) : Display :=
  d.set r (d[r].set c b)

/-- Every pixel off. -/
def Display.clear : Display := Vector.replicate 32 (Vector.replicate 64 false)

/-- The display and `hit` while a sprite is drawn (R103). -/
structure Drawing where
  display : Display
  hit : Bool
deriving DecidableEq, Repr

/-- One sprite bit that is 1, at row `row` and column `col` (R102, R103): XOR it onto its pixel if that is on screen;
a pixel that was on is a collision. -/
def drawBit (edge : SpriteEdge) (row col : Nat) (g : Drawing) : Drawing :=
  match place edge row col with
  | none => g
  | some (r, c) =>
    { display := Display.setPixel g.display r c (!Display.pixel g.display r c)
      hit := g.hit || Display.pixel g.display r c }

/-- One sprite byte, bits `b` up to 7, bit 7 leftmost (R103's inner loop, `count` bits left). -/
def drawByte (edge : SpriteEdge) (bits : Byte) (row x0 b : Nat) : Nat → Drawing → Drawing
  | 0, g => g
  | count + 1, g =>
    drawByte edge bits row x0 (b + 1) count
      (if bits.getLsbD (7 - b) then drawBit edge row (x0 + b) g else g)

/-- The sprite bytes from row `row` down (R103's outer loop). -/
def drawRows (edge : SpriteEdge) (x0 row : Nat) : List Byte → Drawing → Drawing
  | [], g => g
  | bits :: rest, g => drawRows edge x0 (row + 1) rest (drawByte edge bits row x0 0 8 g)

/-- 00E0 CLS (R101). -/
def execCls (s : State) : Result := .next (s.show Display.clear)

/-- Dxyn DRW Vx, Vy, nibble (R103): operands are sampled first, the bounds of all `n` bytes are checked, VF is cleared,
the sprite is drawn, and VF is set if there was a collision. -/
def execDrw (x y : Reg) (n : Fin 16) (s : State) : Result :=
  match firstBad s.i.toNat n.val with
  | some bad => .next (s.raiseFault (.drw x y n) .dataOutOfBounds (BitVec.ofNat 16 bad))
  | none =>
    let x0 := (s.readV x).toNat % 64
    let y0 := (s.readV y).toNat % 32
    let g := drawRows s.cfg.spriteEdge x0 y0 (s.readBlock s.i.toNat n.val) { display := s.display, hit := false }
    .next (((s.writeV vf 0).writeV vf (flagByte g.hit)).show g.display)

end Sys2Proof.Machine
end

