-- ==== Sys2Proof/Machine/HostOps.lean ====
section
/-! DEFINITION. The host's operations beside `step` (00_scope.md R6): `new`, `load`, `tick_timers`, `speed`, `buzzer_active`,
and what the host brings to a step. -/

namespace Sys2Proof.Machine

/-- `new(clock_frequency)` under the parameters `cfg` (R128): refused for a frequency of 0 (R128, D26), and for a
`FONT_BASE` that R9 does not admit. The coming inputs are the host's (`schedule`). -/
def newCore (cfg : Config) (clockFrequency : Nat) (schedule : List StepInput) : Option State :=
  if clockFrequency = 0 || !cfg.valid then none
  else some (State.initial cfg { num := 1, den := clockFrequency } schedule)

/-- Why `load` fails (R115, R130, R131). -/
inductive LoadFailure where
  /-- the host could not supply the bytes (R130) -/
  | io
  /-- more than 3584 bytes (R130) -/
  | tooLarge
  /-- after a step, or a second load (R131) -/
  | notAdmitted
deriving DecidableEq, Repr

/-- `load(bytes)` of R130 and R131; `none` where the host cannot supply the bytes. A failure leaves the instance
as it was (R115). -/
def State.load (s : State) (bytes : Option (List Byte)) : Except LoadFailure State :=
  if s.lifecycle ≠ .constructed then .error .notAdmitted
  else
    match bytes with
    | none => .error .io
    | some bs =>
      if bs.length > Config.addrMax + 1 - Config.progOrigin then .error .tooLarge
      else .ok { s.writeBlock Config.progOrigin bs with lifecycle := .loaded }

/-- One step down, stopping at 0 (R120). -/
def countDown (b : Byte) : Byte := if b = 0 then 0 else b - 1

/-- `tick_timers()` (R120): no effect on a faulted core. -/
def State.tickTimers (s : State) : State :=
  match s.fault with
  | some _ => s
  | none => { s with dt := countDown s.dt, st := countDown s.st }

/-- Any number of ticks in a row. -/
def State.tickN : Nat → State → State
  | 0, s => s
  | n + 1, s => State.tickN n s.tickTimers

/-- `speed()` (R138). -/
def State.speed (s : State) : Duration := s.clockSpeed

/-- `buzzer_active()` (R122). -/
def State.buzzerActive (s : State) : Bool := decide (s.st.toNat > 0)

/-- The host's input for the coming step: the next known one, else a free one (log entry 2). -/
def State.nextInput (s : State) : StepInput :=
  match s.schedule with
  | [] => Config.freeInput s.draws
  | input :: _ => input

/-- Taking an input: its keys and draw are those of this step (R25, R64), and the instance is running (R131). -/
def State.takeInput (s : State) : State :=
  { s with
    keys := s.nextInput.keys
    rnd := s.nextInput.rnd
    schedule := s.schedule.tail
    draws := if s.schedule.isEmpty then s.draws + 1 else s.draws
    lifecycle := .running }

/-- What happens before a step's own cycle: the host takes its ticks (R135) and supplies the input. -/
def State.beginStep (s : State) : State := State.tickN s.nextInput.ticks s.takeInput

end Sys2Proof.Machine
end

