-- ==== Sys2Proof/Machine/Cycle.lean ====
section
/-! DEFINITION. The fetch-decode-execute cycle (30_encoding.md R63), on a state whose step input is taken. -/

namespace Sys2Proof.Machine

/-- The pseudocode of R63, line by line; faults are tried in the order of R118. -/
def State.cycle (s : State) : Result :=
  match s.fault with
  | some r => .next { s with result := .faulted r }
  | none =>
    match s.fetchFault with
    | some kind => .next (s.takeFault kind none s.pc)
    | none =>
      match decode s.cfg.admitGk s.fetchWord with
      | .unrecognized => .next (s.takeFault .unrecognizedInstruction (some s.fetchWord) s.fetchWord)
      | .instr i => exec i s.fetched

end Sys2Proof.Machine
end

