-- ==== Sys2Proof/Machine/Step.lean ====
section
/-! DEFINITION. One step: the host's ticks and input, then the cycle (R63, R135). -/

namespace Sys2Proof.Machine

/-- One step of the machine. -/
def step (s : State) : Host.Outcome State Fault Refusal := s.beginStep.cycle

/-- `s` with an instruction of the opcode table stored where `step` fetches next, at `pc` and `pc + 1`
(log entry 6). -/
def State.withFetchWord (s : State) (nbits w : Nat) : State :=
  s.placeWord (BitVec.ofNat 16 (w % 2 ^ nbits))

end Sys2Proof.Machine
end

