-- ==== Sys2Proof/Safety.lean ====
section
/-! DEFINITION. The terms claims are stated in: which part of the state an instruction leaves alone, the invariant of reachable
states (R28), the reachable states (R132), and how a run can end (R133). -/

namespace Sys2Proof.Machine

/-- The parts of the state, as 10_state.md lists them; `ports` are the model's own fields for the step inputs
and the lifecycle. -/
inductive Part where
  | cfg
  | v
  | i
  | pc
  | sp
  | stack
  | display
  | dt
  | st
  | clockSpeed
  | mem
  | fault
  | result
  | ports
deriving DecidableEq, Repr

/-- Part `p` is the same in both states; memory is compared byte by byte at every address. -/
def Part.Same (p : Part) (s t : State) : Prop :=
  match p with
  | .cfg => t.cfg = s.cfg
  | .v => ∀ r, t.readV r = s.readV r
  | .i => t.i = s.i
  | .pc => t.pc = s.pc
  | .sp => t.sp = s.sp
  | .stack => t.stack = s.stack
  | .display => t.display = s.display
  | .dt => t.dt = s.dt
  | .st => t.st = s.st
  | .clockSpeed => t.clockSpeed = s.clockSpeed
  | .mem => ∀ a, t.readByte a = s.readByte a
  | .fault => t.fault = s.fault
  | .result => t.result = s.result
  | .ports =>
    t.lifecycle = s.lifecycle ∧ t.keys = s.keys ∧ t.rnd = s.rnd ∧ t.schedule = s.schedule ∧ t.draws = s.draws

/-- The frame: from `s` to `t` nothing changes but the parts listed. -/
def OnlyChanges (parts : List Part) (s t : State) : Prop := ∀ p : Part, p ∉ parts → p.Same s t

/-- What holds of every reachable state (R28, with R16, R17, R18, R116, R117 and the canonical form of memory). -/
structure State.Inv (s : State) : Prop where
  memCanonical : Memory.wf s.cfg s.mem = true
  cfgValid : s.cfg.valid = true
  clockPositive : 0 < s.clockSpeed.den
  /-- the largest `pc` is the largest target of Bnnn (R16, R78) -/
  pcBound : s.pc.toNat ≤ 0x10FE
  /-- a return address follows a fetched CALL (R62, R73) -/
  stackBound : ∀ j : Fin 16, s.stack[j].toNat ≤ 0x1000
  /-- under STRICT a fetched CALL is at an even address (R62, R73) -/
  stackEven : s.cfg.fetchAlignment = .strict → ∀ j : Fin 16, s.stack[j].toNat % 2 = 0
  /-- entry 0 is never written (R18) -/
  stackBase : s.stack[0] = 0
  /-- a faulted core shows its record and keeps the `pc` it faulted at (R116, R117) -/
  faultShown : ∀ r, s.fault = some r → s.result = .faulted r ∧ r.addr = s.pc

/-- The states an instance can be in (R132): constructed, perhaps loaded, then stepped and ticked in any interleaving
(R135), with whatever inputs the host chooses (R25, R64). -/
inductive Reachable : State → Prop where
  | new {cfg f sch s} : newCore cfg f sch = some s → Reachable s
  | load {s t bytes} : Reachable s → s.load bytes = .ok t → Reachable t
  | tick {s} : Reachable s → Reachable s.tickTimers
  | step {s t} : Reachable s → step s = .next t → Reachable t
  | input {s} (sch : List StepInput) : Reachable s → Reachable { s with schedule := sch }

/-- End of a run, case (a) of R133. -/
def State.Faulted (s : State) : Prop := s.fault ≠ none

/-- End of a run, case (b) of R133: `pc` points at a word 1nnn whose `nnn` equals `pc`. -/
def State.Parked (s : State) : Prop :=
  s.fault = none ∧ s.fetchFault = none ∧ s.fetchWord = 0x1000#16 + s.pc ∧ s.pc.toNat ≤ 0xFFF

/-- Quiescent but not ended (R133): a fetchable Fx0A with no key pressed in this step's input. -/
def State.Waiting (s : State) : Prop :=
  s.fault = none ∧ s.fetchFault = none ∧ (∃ x : Reg, decode s.cfg.admitGk s.fetchWord = .instr (.ldVxK x)) ∧
    ∀ k : Fin 16, s.keys[k] = false

end Sys2Proof.Machine
end

