-- ==== Sys2Proof/Certificates/Slice0/Obligations.lean ====
section
/-! DEFINITION. The statements for the provers, and the terms they are written in. An instruction's statement speaks of `exec`,
which runs on the state after the fetch (its `pc` is the instruction's address plus 2, R16); StepRunsDecodedInstruction
says how a step calls it. Instruction words are written out bit by bit from the encodings of R54 and R56. -/

namespace Sys2Proof.Spec

open Sys2Proof Sys2Proof.Machine

/-- The word decodes to the instruction; with `ADMIT_GK_OPCODES = false` a gated instruction's word is unrecognized. -/
def Encodes (w : Word) (i : Instr) : Prop :=
  decode true w = .instr i ∧ decode false w = if i.isGk then .unrecognized else .instr i

/-- The register file after a result and its flag, as numbers: VF holds the flag even when it is the destination. -/
def FlagResult (s t : State) (x : Reg) (result flag : Nat) : Prop :=
  ∀ r : Reg, (t.readV r).toNat = if r = 15 then flag else if r = x then result else (s.readV r).toNat

/-- A check of the instruction with word `w` raised a fault: the record is taken, the advance of `pc` by the fetch
is discarded, and nothing else changes (R116, R117). -/
def Raised (s t : State) (w : Word) (kind : FaultKind) (detail : Nat) : Prop :=
  t.fault = some { kind := kind, addr := s.pc - 2, word := some w, detail := BitVec.ofNat 16 detail } ∧
  t.result = .faulted { kind := kind, addr := s.pc - 2, word := some w, detail := BitVec.ofNat 16 detail } ∧
  t.pc = s.pc - 2 ∧ OnlyChanges [.pc, .fault, .result] s t

/-- The state is not faulted and its fetch passes the checks of R62 and reads the word `w` (R43). -/
def Fetches (s : State) (w : Word) : Prop :=
  s.fault = none ∧ s.pc.toNat + 1 ≤ 0xFFF ∧
  (s.cfg.fetchAlignment = .strict → s.pc.toNat % 2 = 0) ∧
  (s.readByte s.pc.toNat ++ s.readByte (s.pc.toNat + 1) : Word) = w

/-- The instructions that return a display snapshot (R65). -/
def Draws (i : Instr) : Prop := i = .cls ∨ ∃ x y n, i = .drw x y n

/-- The sprite bit that `DRW Vx, Vy, n` puts on pixel (r, c): rows and columns count from the start position
(Vx mod 64, Vy mod 32), bit 7 of a sprite byte leftmost; CLIP drops what falls off the edge, WRAP carries it round
(R103, R104). -/
def spriteBit (s : State) (x y : Reg) (n : Fin 16) (r : Fin 32) (c : Fin 64) : Bool :=
  let x0 := (s.readV x).toNat % 64
  let y0 := (s.readV y).toNat % 32
  match s.cfg.spriteEdge with
  | .clip =>
    decide (y0 ≤ r.val ∧ r.val < y0 + n.val ∧ x0 ≤ c.val ∧ c.val < x0 + 8) &&
      (s.readByte (s.i.toNat + (r.val - y0))).getLsbD (7 - (c.val - x0))
  | .wrap =>
    let dr := (r.val + 32 - y0) % 32
    let dc := (c.val + 64 - x0) % 64
    decide (dr < n.val ∧ dc < 8) && (s.readByte (s.i.toNat + dr)).getLsbD (7 - dc)

/-- The font of R40, byte by byte, digit 0 first. -/
def fontBytes : List Byte :=
  [0xF0, 0x90, 0x90, 0x90, 0xF0] ++ [0x20, 0x60, 0x20, 0x20, 0x70] ++
  [0xF0, 0x10, 0xF0, 0x80, 0xF0] ++ [0xF0, 0x10, 0xF0, 0x10, 0xF0] ++
  [0x90, 0x90, 0xF0, 0x10, 0x10] ++ [0xF0, 0x80, 0xF0, 0x10, 0xF0] ++
  [0xF0, 0x80, 0xF0, 0x90, 0xF0] ++ [0xF0, 0x10, 0x20, 0x40, 0x40] ++
  [0xF0, 0x90, 0xF0, 0x90, 0xF0] ++ [0xF0, 0x90, 0xF0, 0x10, 0xF0] ++
  [0xF0, 0x90, 0xF0, 0x90, 0x90] ++ [0xE0, 0x90, 0xE0, 0x90, 0xE0] ++
  [0xF0, 0x80, 0x80, 0x80, 0xF0] ++ [0xE0, 0x90, 0x90, 0x90, 0xE0] ++
  [0xF0, 0x80, 0xF0, 0x80, 0xF0] ++ [0xF0, 0x80, 0xF0, 0x80, 0x80]

end Sys2Proof.Spec

open Sys2Proof Sys2Proof.Machine Sys2Proof.Spec

/-! ### Encoding -/

/-- Words written out from the encoding column of the opcode table, at least one of each family, decode to the
instructions they stand for. -/
def Obligations.WordsFromTheTableDecode : Prop :=
  Encodes 0b0000000000000000#16 .nop ∧
  Encodes 0b0000000011100000#16 .cls ∧
  Encodes 0b0000000011101110#16 .ret ∧
  Encodes 0b0010001100000000#16 (.call 0x300#12) ∧
  Encodes 0b0101000100100000#16 (.seReg 1 2) ∧
  Encodes 0b0111001100000101#16 (.addImm 3 5#8) ∧
  Encodes 0b1000000100100111#16 (.subn 1 2) ∧
  Encodes 0b1010001100000000#16 (.ldI 0x300#12) ∧
  Encodes 0b1101000000010101#16 (.drw 0 1 5) ∧
  Encodes 0b1110010110011110#16 (.skp 5) ∧
  Encodes 0b1111001100001010#16 (.ldVxK 3) ∧
  Encodes 0b1111001001100101#16 (.ldVxMem 2)

/-- Decoding the word of any well-formed instruction gives the instruction back, every operand at every value. -/
def Obligations.DecodeOfEncode : Prop :=
  ∀ (admitGk : Bool) (i : Instr), i.wellFormed admitGk = true → decode admitGk (encode i) = .instr i

/-- Every word that decodes is the word of its instruction: no two words mean one instruction, so the word of a fault
record raised by an instruction is the fetched word. Derived: this is what log entry 4 rests on. -/
def Obligations.EncodeOfDecode : Prop :=
  ∀ (admitGk : Bool) (w : Word) (i : Instr), decode admitGk w = .instr i →
    encode i = w ∧ i.wellFormed admitGk = true

/-- R57: the unrecognized words, exhaustively, by the fields of R52 as numbers; and executing one is the fatal
decode fault, with the word as the detail. -/
def Obligations.UnrecognizedWordsExactly : Prop :=
  (∀ (admitGk : Bool) (w : Word), decode admitGk w = .unrecognized ↔
    (let op := w.toNat / 4096
     let n := w.toNat % 16
     let kk := w.toNat % 256
     let nnn := w.toNat % 4096
     (op = 0 ∧ nnn ≠ 0x000 ∧ nnn ≠ 0x0E0 ∧ nnn ≠ 0x0EE) ∨
     (op = 5 ∧ n ≠ 0) ∨
     (op = 8 ∧ (n = 8 ∨ n = 9 ∨ n = 0xA ∨ n = 0xB ∨ n = 0xC ∨ n = 0xD ∨ n = 0xF)) ∨
     (op = 9 ∧ n ≠ 0) ∨
     (op = 0xE ∧ kk ≠ 0x9E ∧ kk ≠ 0xA1) ∨
     (op = 0xF ∧ kk ≠ 0x07 ∧ kk ≠ 0x0A ∧ kk ≠ 0x15 ∧ kk ≠ 0x18 ∧ kk ≠ 0x1E ∧ kk ≠ 0x29 ∧ kk ≠ 0x33 ∧
       kk ≠ 0x55 ∧ kk ≠ 0x65) ∨
     (admitGk = false ∧ ((op = 5 ∧ n = 0) ∨ (op = 8 ∧ n = 0) ∨ (op = 8 ∧ n = 7) ∨ (op = 9 ∧ n = 0) ∨
       op = 0xB ∨ op = 0xC ∨ (op = 0xF ∧ kk = 0x0A))))) ∧
  (∀ (s : State) (w : Word), Fetches s.beginStep w → decode s.cfg.admitGk w = .unrecognized →
    ∃ t, step s = .next t ∧
      t.fault = some { kind := .unrecognizedInstruction, addr := s.pc, word := some w, detail := w } ∧
      t.result = .faulted { kind := .unrecognizedInstruction, addr := s.pc, word := some w, detail := w } ∧
      OnlyChanges [.fault, .result] s.beginStep t)

/-- R59: the gate. With the default `ADMIT_GK_OPCODES = true` the seven gated rows decode; with false they are
unrecognized, and no other word is affected. -/
def Obligations.GkGateRemovesSevenRows : Prop :=
  Config.default.admitGk = true ∧
  (∀ i : Instr, i.isGk = true ↔
    (∃ x y, i = .seReg x y) ∨ (∃ x y, i = .ldReg x y) ∨ (∃ x y, i = .subn x y) ∨ (∃ x y, i = .sneReg x y) ∨
    (∃ nnn, i = .jpV0 nnn) ∨ (∃ x kk, i = .rnd x kk) ∨ (∃ x, i = .ldVxK x)) ∧
  (∀ i : Instr, decode true (encode i) = .instr i) ∧
  (∀ (w : Word) (i : Instr), decode true w = .instr i →
    decode false w = if i.isGk then .unrecognized else .instr i) ∧
  (∀ w : Word, decode true w = .unrecognized → decode false w = .unrecognized)

/-- Derived (R56 marks the sentence as derived): no two rows of the opcode table match one word, the table has 35
rows, and the decoder reads exactly the row that matches and that the gate admits. -/
def Obligations.DecoderFollowsTheTable : Prop :=
  opcodeTable.length = 35 ∧
  (∀ r₁ ∈ opcodeTable, ∀ r₂ ∈ opcodeTable, ∀ w : Word, r₁.matches w = true → r₂.matches w = true → r₁ = r₂) ∧
  (∀ (admitGk : Bool) (w : Word) (i : Instr), decode admitGk w = .instr i →
    i.row ∈ opcodeTable ∧ i.row.matches w = true ∧ (admitGk || !i.row.gk) = true) ∧
  (∀ (admitGk : Bool) (w : Word), ∀ r ∈ opcodeTable, r.matches w = true → (admitGk || !r.gk) = true →
    ∃ i, decode admitGk w = .instr i ∧ i.row = r)

/-! ### The step -/

/-- A step runs the decoded instruction: when the two bytes at `pc`, big-endian, decode to `i`, the step is `exec i` on the
state whose `pc` has advanced by 2 and whose result is "no update". `beginStep` is what the host brings
(HostInputBeforeStep). -/
def Obligations.StepRunsDecodedInstruction : Prop :=
  ∀ (s : State) (w : Word) (i : Instr), Fetches s.beginStep w → decode s.cfg.admitGk w = .instr i →
    step s = exec i { s.beginStep with pc := s.pc + 2, result := .noUpdate }

/-- Before its cycle a step takes the host's next input: its ticks come first, its keys and draw are those of this
step; an input that is not scheduled is a free value, different for every draw count. Model's choice, log entry 2. -/
def Obligations.HostInputBeforeStep : Prop :=
  ∀ s : State,
    (∀ inp rest, s.schedule = inp :: rest →
      s.nextInput = inp ∧ s.beginStep.schedule = rest ∧ s.beginStep.draws = s.draws) ∧
    (s.schedule = [] →
      s.nextInput = { ticks := Config.freeTicks s.draws, keys := Config.freeKeys s.draws, rnd := Config.freeRnd s.draws } ∧
      s.beginStep.schedule = [] ∧ s.beginStep.draws = s.draws + 1) ∧
    s.beginStep.keys = s.nextInput.keys ∧ s.beginStep.rnd = s.nextInput.rnd ∧ s.beginStep.lifecycle = .running ∧
    (s.fault = none →
      s.beginStep.dt.toNat = s.dt.toNat - s.nextInput.ticks ∧ s.beginStep.st.toNat = s.st.toNat - s.nextInput.ticks) ∧
    (s.fault ≠ none → s.beginStep.dt = s.dt ∧ s.beginStep.st = s.st) ∧
    OnlyChanges [.dt, .st, .ports] s s.beginStep

/-- R25, R26: keys, draw and the display-changed indication are not retained: whatever a state holds of the last
step's, the next step is the same. -/
def Obligations.StepInputsAndResultNotRetained : Prop :=
  ∀ (s : State) (keys : Keys) (rnd : Byte) (result : StepResult),
    step { s with keys := keys, rnd := rnd, result := result } = step s

/-- R62: the fetch checks in their order, each with its record and nothing else changed; and where both pass, no step
raises either fault. -/
def Obligations.FetchChecksInOrder : Prop :=
  ∀ s : State, s.fault = none →
    (0xFFF < s.pc.toNat + 1 →
      ∃ t, step s = .next t ∧
        t.fault = some { kind := .fetchOutOfBounds, addr := s.pc, word := none, detail := s.pc } ∧
        OnlyChanges [.fault, .result] s.beginStep t) ∧
    (s.pc.toNat + 1 ≤ 0xFFF → s.cfg.fetchAlignment = .strict → s.pc.toNat % 2 = 1 →
      ∃ t, step s = .next t ∧
        t.fault = some { kind := .misalignedFetch, addr := s.pc, word := none, detail := s.pc } ∧
        OnlyChanges [.fault, .result] s.beginStep t) ∧
    (s.pc.toNat + 1 ≤ 0xFFF → (s.cfg.fetchAlignment = .strict → s.pc.toNat % 2 = 0) →
      ∀ t r, step s = .next t → t.fault = some r → r.kind ≠ .fetchOutOfBounds ∧ r.kind ≠ .misalignedFetch)

/-- R66: a faulted core is absorbing: a step returns the same record and changes no state (only the model's ports and
the returned result), and a tick changes nothing. -/
def Obligations.FaultedCoreAbsorbs : Prop :=
  ∀ (s : State) (r : FaultRecord), s.fault = some r →
    s.tickTimers = s ∧
    ∃ t, step s = .next t ∧ t.fault = some r ∧ t.result = .faulted r ∧ OnlyChanges [.result, .ports] s t

/-- R117: a step that faults writes nothing but the fault record: from the state the step began in (after the host's
ticks, which are operations of their own), only the fault state and the returned result differ; and the core is then
absorbing. -/
def Obligations.FaultsArePrecise : Prop :=
  ∀ (s t : State), s.fault = none → step s = .next t → t.fault ≠ none →
    OnlyChanges [.fault, .result] s.beginStep t ∧
    ∃ u, step t = .next u ∧ u.fault = t.fault ∧ OnlyChanges [.result, .ports] t u

/-- R114, R116, R118: whenever a step faults, the record's address is the step's `pc` and its kind, code, class, word and detail
are those of the table, under the table's condition; no other instruction raises a fault. The conditions of a later
check hold only where the earlier ones passed (`Fetches`), which is the priority. -/
def Obligations.FaultRecordsFollowTheTable : Prop :=
  ∀ (s t : State) (r : FaultRecord), s.fault = none → step s = .next t → t.fault = some r →
    r.addr = s.pc ∧
    match r.kind with
    | .fetchOutOfBounds => r.code = 4 ∧ r.kind.toClass = .outOfBoundsAccess ∧
      r.word = none ∧ r.detail = s.pc ∧ 0xFFF < s.pc.toNat + 1
    | .misalignedFetch =>
      r.code = 5 ∧ r.kind.toClass = .outOfBoundsAccess ∧ r.word = none ∧ r.detail = s.pc ∧
      s.pc.toNat + 1 ≤ 0xFFF ∧
      s.cfg.fetchAlignment = .strict ∧ s.pc.toNat % 2 = 1
    | .unrecognizedInstruction =>
      r.code = 1 ∧ r.kind.toClass = .unrecognizedInstruction ∧
        ∃ w, Fetches s.beginStep w ∧ r.word = some w ∧ r.detail = w ∧
        decode s.cfg.admitGk w = .unrecognized
    | .stackOverflow =>
      r.code = 2 ∧ r.kind.toClass = .resourceExhaustion ∧
        ∃ w nnn, Fetches s.beginStep w ∧ r.word = some w ∧ decode s.cfg.admitGk w = .instr (.call nnn) ∧
        s.sp = 15 ∧ r.detail = 15
    | .stackUnderflow =>
      r.code = 3 ∧ r.kind.toClass = .resourceExhaustion ∧
        ∃ w, Fetches s.beginStep w ∧ r.word = some w ∧ decode s.cfg.admitGk w = .instr .ret ∧
        s.sp = 0 ∧ r.detail = 0
    | .dataOutOfBounds =>
      r.code = 6 ∧ r.kind.toClass = .outOfBoundsAccess ∧
        ∃ w i count, Fetches s.beginStep w ∧ r.word = some w ∧ decode s.cfg.admitGk w = .instr i ∧
        ((∃ x y n, i = .drw x y n ∧ count = n.val) ∨ (∃ x, i = .ldB x ∧ count = 3) ∨
          (∃ x, i = .ldMemVx x ∧ count = x.val + 1) ∨ (∃ x, i = .ldVxMem x ∧ count = x.val + 1)) ∧
        0 < count ∧ 0xFFF < s.i.toNat + count - 1 ∧ r.detail.toNat = max s.i.toNat 0x1000
    | .keyOutOfRange =>
      r.code = 7 ∧ r.kind.toClass = .outOfBoundsAccess ∧
        ∃ w i x, Fetches s.beginStep w ∧ r.word = some w ∧ decode s.cfg.admitGk w = .instr i ∧
        (i = .skp x ∨ i = .sknp x) ∧ s.cfg.keyIndexPolicy = .fault ∧ 0x0F < (s.readV x).toNat ∧
        r.detail.toNat = (s.readV x).toNat

/-- R65 (its clause on Dxyn is marked derived there): what a step returns. CLS and DRW return a snapshot of the display after
the instruction, every other instruction "no update", a fault its record. -/
def Obligations.StepResultIsSnapshotNoUpdateOrFault : Prop :=
  ∀ (s t : State), step s = .next t →
    (∃ r, t.fault = some r ∧ t.result = .faulted r) ∨
    (t.fault = none ∧ ∃ w i, Fetches s.beginStep w ∧ decode s.cfg.admitGk w = .instr i ∧
      (Draws i → t.result = .update t.display) ∧ (¬ Draws i → t.result = .noUpdate))

/-- Model's choice (log entry 1, read from R24 and R66, which keep a fault's record as state and let a faulted core be stepped
again): a machine fault is a next state and the interface's own fault outcome is never used, so every state has a next
state: no step is refused and none stops. -/
def Obligations.EveryStepHasANextState : Prop :=
  ∀ s : State, ∃ t, step s = .next t

/-! ### Control transfer -/

/-- R70: NOP does nothing: the step only advances `pc` by 2. The last clause is R70's corner case, marked derived there: a
run of zeros ends at 0xFFE, where the step after the NOP faults. -/
def Obligations.NopOnlyAdvancesPc : Prop :=
  Encodes 0x0000#16 .nop ∧ (∀ s : State, exec .nop s = .next s) ∧
  ∀ s : State, Fetches s.beginStep 0x0000#16 →
    ∃ t, step s = .next t ∧ t.pc = s.pc + 2 ∧ t.result = .noUpdate ∧ OnlyChanges [.pc, .result] s.beginStep t ∧
      (s.pc = 0xFFE → ∃ u, step t = .next u ∧
        u.fault = some { kind := .fetchOutOfBounds, addr := 0x1000, word := none, detail := 0x1000 })

/-- R71: RET pops, or faults on the empty stack before any write. -/
def Obligations.ReturnPopsOrUnderflows : Prop :=
  Encodes 0x00EE#16 .ret ∧
  (∀ s : State, s.sp ≠ 0 →
    ∃ t, exec .ret s = .next t ∧ t.pc = s.stack[s.sp] ∧ t.sp.val = s.sp.val - 1 ∧ OnlyChanges [.pc, .sp] s t) ∧
  (∀ s : State, s.sp = 0 → ∃ t, exec .ret s = .next t ∧ Raised s t 0x00EE#16 .stackUnderflow 0)

/-- R72: JP sets `pc` to the zero-extended address and nothing else. -/
def Obligations.JumpSetsPc : Prop :=
  ∀ nnn : Addr, Encodes (0b0001#4 ++ nnn) (.jp nnn) ∧
    ∀ s : State, ∃ t, exec (.jp nnn) s = .next t ∧ t.pc.toNat = nnn.toNat ∧ OnlyChanges [.pc] s t

/-- R73: CALL pushes the address after it and jumps, or faults with 15 addresses held before any write. -/
def Obligations.CallPushesOrOverflows : Prop :=
  ∀ nnn : Addr, Encodes (0b0010#4 ++ nnn) (.call nnn) ∧
    (∀ s : State, s.sp ≠ 15 →
      ∃ t, exec (.call nnn) s = .next t ∧ t.sp.val = s.sp.val + 1 ∧ t.pc.toNat = nnn.toNat ∧
        (∀ j : Fin 16, t.stack[j] = if j.val = s.sp.val + 1 then s.pc else s.stack[j]) ∧
        OnlyChanges [.pc, .sp, .stack] s t) ∧
    (∀ s : State, s.sp = 15 → ∃ t, exec (.call nnn) s = .next t ∧ Raised s t (0b0010#4 ++ nnn) .stackOverflow 15)

/-- The source's call and return property (95_test_vectors.md E6): a CALL followed at its target by a RET comes back to the
instruction after the CALL with the stack pointer as it was. -/
def Obligations.CallThenReturnComesBack : Prop :=
  ∀ (s t : State) (nnn : Addr), Fetches s.beginStep (0b0010#4 ++ nnn) → s.sp ≠ 15 → step s = .next t →
    Fetches t.beginStep 0x00EE#16 →
    ∃ u, step t = .next u ∧ u.fault = none ∧ u.pc = s.pc + 2 ∧ u.sp = s.sp ∧
      OnlyChanges [.pc, .stack, .dt, .st, .result, .ports] s u ∧
      ∀ j : Fin 16, j.val ≠ s.sp.val + 1 → u.stack[j] = s.stack[j]

/-- R74, R75: the skips on an immediate. -/
def Obligations.SkipsOnImmediate : Prop :=
  ∀ (x : Reg) (kk : Byte),
    Encodes (0b0011#4 ++ nib x ++ kk) (.seImm x kk) ∧ Encodes (0b0100#4 ++ nib x ++ kk) (.sneImm x kk) ∧
    ∀ s : State,
      (∃ t, exec (.seImm x kk) s = .next t ∧
        t.pc = (if s.readV x = kk then s.pc + 2 else s.pc) ∧ OnlyChanges [.pc] s t) ∧
      (∃ t, exec (.sneImm x kk) s = .next t ∧
        t.pc = (if s.readV x = kk then s.pc else s.pc + 2) ∧ OnlyChanges [.pc] s t)

/-- R76, R77: the skips on two registers. -/
def Obligations.SkipsOnRegisters : Prop :=
  ∀ x y : Reg,
    Encodes (0b0101#4 ++ nib x ++ nib y ++ 0b0000#4) (.seReg x y) ∧
    Encodes (0b1001#4 ++ nib x ++ nib y ++ 0b0000#4) (.sneReg x y) ∧
    (∀ n : Nibble, n ≠ 0 → decode true (0b0101#4 ++ nib x ++ nib y ++ n) = .unrecognized ∧
      decode true (0b1001#4 ++ nib x ++ nib y ++ n) = .unrecognized) ∧
    ∀ s : State,
      (∃ t, exec (.seReg x y) s = .next t ∧
        t.pc = (if s.readV x = s.readV y then s.pc + 2 else s.pc) ∧ OnlyChanges [.pc] s t) ∧
      (∃ t, exec (.sneReg x y) s = .next t ∧
        t.pc = (if s.readV x = s.readV y then s.pc else s.pc + 2) ∧ OnlyChanges [.pc] s t)

/-- R78: the jump with offset: the exact sum of the address and V0, neither wrapped nor masked. -/
def Obligations.JumpWithOffsetIsExact : Prop :=
  ∀ nnn : Addr, Encodes (0b1011#4 ++ nnn) (.jpV0 nnn) ∧
    ∀ s : State, ∃ t, exec (.jpV0 nnn) s = .next t ∧ t.pc.toNat = nnn.toNat + (s.readV 0).toNat ∧
      t.pc.toNat ≤ 0x10FE ∧ OnlyChanges [.pc] s t

/-! ### Register loads and the ALU -/

/-- R80, R82: the plain loads of a register. -/
def Obligations.LoadsIntoRegister : Prop :=
  ∀ x : Reg,
    (∀ kk : Byte, Encodes (0b0110#4 ++ nib x ++ kk) (.ldImm x kk) ∧
      ∀ s : State, ∃ t, exec (.ldImm x kk) s = .next t ∧
        (∀ r, t.readV r = if r = x then kk else s.readV r) ∧ OnlyChanges [.v] s t) ∧
    (∀ y : Reg, Encodes (0b1000#4 ++ nib x ++ nib y ++ 0b0000#4) (.ldReg x y) ∧
      ∀ s : State, ∃ t, exec (.ldReg x y) s = .next t ∧
        (∀ r, t.readV r = if r = x then s.readV y else s.readV r) ∧ OnlyChanges [.v] s t)

/-- R81: ADD immediate wraps and writes no flag: VF changes only where it is the destination. -/
def Obligations.AddImmediateWrapsWithoutFlag : Prop :=
  ∀ (x : Reg) (kk : Byte), Encodes (0b0111#4 ++ nib x ++ kk) (.addImm x kk) ∧
    ∀ s : State, ∃ t, exec (.addImm x kk) s = .next t ∧
      (∀ r, (t.readV r).toNat = if r = x then ((s.readV x).toNat + kk.toNat) % 256 else (s.readV r).toNat) ∧
      OnlyChanges [.v] s t

/-- R83, R84, R85: the logic instructions; VF is cleared after the result under `LOGIC_VF_RESET` and left alone
otherwise. -/
def Obligations.LogicInstructions : Prop :=
  ∀ x y : Reg,
    Encodes (0b1000#4 ++ nib x ++ nib y ++ 0b0001#4) (.orReg x y) ∧
    Encodes (0b1000#4 ++ nib x ++ nib y ++ 0b0010#4) (.andReg x y) ∧
    Encodes (0b1000#4 ++ nib x ++ nib y ++ 0b0011#4) (.xorReg x y) ∧
    Config.default.logicVfReset = false ∧
    ∀ s : State,
      let after (t : State) (f : Bool → Bool → Bool) : Prop :=
        (∀ r, r ≠ x → r ≠ 15 → t.readV r = s.readV r) ∧
        (s.cfg.logicVfReset = true → t.readV 15 = 0) ∧
        (s.cfg.logicVfReset = false → x ≠ 15 → t.readV 15 = s.readV 15) ∧
        (s.cfg.logicVfReset = false ∨ x ≠ 15 →
          ∀ k < 8, (t.readV x).getLsbD k = f ((s.readV x).getLsbD k) ((s.readV y).getLsbD k)) ∧
        OnlyChanges [.v] s t
      (∃ t, exec (.orReg x y) s = .next t ∧ after t (fun a b => a || b)) ∧
      (∃ t, exec (.andReg x y) s = .next t ∧ after t (fun a b => a && b)) ∧
      (∃ t, exec (.xorReg x y) s = .next t ∧ after t (fun a b => a != b))

/-- R86: ADD with carry out. -/
def Obligations.AddSetsCarry : Prop :=
  ∀ x y : Reg, Encodes (0b1000#4 ++ nib x ++ nib y ++ 0b0100#4) (.addReg x y) ∧
    ∀ s : State, ∃ t, exec (.addReg x y) s = .next t ∧
      FlagResult s t x (((s.readV x).toNat + (s.readV y).toNat) % 256)
        (if (s.readV x).toNat + (s.readV y).toNat > 255 then 1 else 0) ∧
      OnlyChanges [.v] s t

/-- SUB and SUBN (R87, R89, R92). Derived: R87 marks the comparison `>=` as derived from "VF = NOT borrow". -/
def Obligations.SubtractSetsNotBorrow : Prop :=
  ∀ x y : Reg,
    Encodes (0b1000#4 ++ nib x ++ nib y ++ 0b0101#4) (.sub x y) ∧
    Encodes (0b1000#4 ++ nib x ++ nib y ++ 0b0111#4) (.subn x y) ∧
    ∀ s : State,
      let a := (s.readV x).toNat
      let b := (s.readV y).toNat
      (∃ t, exec (.sub x y) s = .next t ∧
        FlagResult s t x ((a + 256 - b) % 256) (if a ≥ b then 1 else 0) ∧ OnlyChanges [.v] s t) ∧
      (∃ t, exec (.subn x y) s = .next t ∧
        FlagResult s t x ((b + 256 - a) % 256) (if b ≥ a then 1 else 0) ∧ OnlyChanges [.v] s t)

/-- R88, R90: the shifts by one, of Vx or Vy by `SHIFT_SOURCE`, with the dropped bit in VF. -/
def Obligations.ShiftsByOne : Prop :=
  ∀ x y : Reg,
    Encodes (0b1000#4 ++ nib x ++ nib y ++ 0b0110#4) (.shr x y) ∧
    Encodes (0b1000#4 ++ nib x ++ nib y ++ 0b1110#4) (.shl x y) ∧
    Config.default.shiftSource = .vx ∧
    ∀ (s : State) (a : Nat),
      (s.cfg.shiftSource = .vx ∧ a = (s.readV x).toNat) ∨ (s.cfg.shiftSource = .vy ∧ a = (s.readV y).toNat) →
      (∃ t, exec (.shr x y) s = .next t ∧ FlagResult s t x (a / 2) (a % 2) ∧ OnlyChanges [.v] s t) ∧
      (∃ t, exec (.shl x y) s = .next t ∧ FlagResult s t x (a * 2 % 256) (a / 128) ∧ OnlyChanges [.v] s t)

/-- R91: RND masks the step's draw, for every draw; a zero mask gives zero and a full mask the draw. -/
def Obligations.RandomMasksTheDraw : Prop :=
  ∀ (x : Reg) (kk : Byte), Encodes (0b1100#4 ++ nib x ++ kk) (.rnd x kk) ∧
    ∀ s : State, ∃ t, exec (.rnd x kk) s = .next t ∧
      (∀ k < 8, (t.readV x).getLsbD k = (s.rnd.getLsbD k && kk.getLsbD k)) ∧
      (kk = 0x00 → t.readV x = 0) ∧ (kk = 0xFF → t.readV x = s.rnd) ∧
      (∀ r, r ≠ x → t.readV r = s.readV r) ∧ OnlyChanges [.v] s t

/-- R14: VF as the flag register. An instruction that changes VF is a flag-producing one (the logic ones only under
`LOGIC_VF_RESET`) or names VF as a destination; and each flag-producing instruction that does not fault leaves 0 or 1
in VF. -/
def Obligations.VfWrittenOnlyAsFlagOrDestination : Prop :=
  ∀ (i : Instr) (s t : State), s.fault = none → exec i s = .next t → t.fault = none →
    let flagOp :=
      (∃ x y, i = .addReg x y) ∨ (∃ x y, i = .sub x y) ∨ (∃ x y, i = .shr x y) ∨ (∃ x y, i = .subn x y) ∨
      (∃ x y, i = .shl x y) ∨ (∃ x y n, i = .drw x y n)
    let logicOp := (∃ x y, i = .orReg x y) ∨ (∃ x y, i = .andReg x y) ∨ (∃ x y, i = .xorReg x y)
    let namesVf :=
      (∃ kk, i = .ldImm 15 kk) ∨ (∃ kk, i = .addImm 15 kk) ∨ (∃ y, i = .ldReg 15 y) ∨ (∃ y, i = .orReg 15 y) ∨
      (∃ y, i = .andReg 15 y) ∨ (∃ y, i = .xorReg 15 y) ∨ (∃ kk, i = .rnd 15 kk) ∨ i = .ldVxDt 15 ∨ i = .ldVxK 15 ∨
      i = .ldVxMem 15
    (t.readV 15 ≠ s.readV 15 → flagOp ∨ (s.cfg.logicVfReset = true ∧ logicOp) ∨ namesVf) ∧
    (flagOp → t.readV 15 = 0 ∨ t.readV 15 = 1) ∧
    (s.cfg.logicVfReset = true → logicOp → t.readV 15 = 0)

/-! ### Index register and memory -/

/-- R93, R94, R95: the three instructions that set I; none writes a flag. -/
def Obligations.IndexInstructions : Prop :=
  (∀ nnn : Addr, Encodes (0b1010#4 ++ nnn) (.ldI nnn) ∧
    ∀ s : State, ∃ t, exec (.ldI nnn) s = .next t ∧ t.i.toNat = nnn.toNat ∧ OnlyChanges [.i] s t) ∧
  (∀ x : Reg, Encodes (0b1111#4 ++ nib x ++ 0b00011110#8) (.addI x) ∧
    ∀ s : State, ∃ t, exec (.addI x) s = .next t ∧
      t.i.toNat = (s.i.toNat + (s.readV x).toNat) % 65536 ∧ OnlyChanges [.i] s t) ∧
  (∀ x : Reg, Encodes (0b1111#4 ++ nib x ++ 0b00101001#8) (.ldF x) ∧
    ∀ s : State, ∃ t, exec (.ldF x) s = .next t ∧
      (s.cfg.valid = true → t.i.toNat = s.cfg.fontBase + 5 * ((s.readV x).toNat % 16)) ∧ OnlyChanges [.i] s t)

/-- R96: the decimal digits of Vx go to I, I+1 and I+2, hundreds first, and no other byte changes; or the range passes 0xFFF and
the instruction faults before any write. The premise on memory is its canonical form, kept by every step
(StepKeepsInvariant). -/
def Obligations.DecimalStore : Prop :=
  ∀ x : Reg, Encodes (0b1111#4 ++ nib x ++ 0b00110011#8) (.ldB x) ∧
    ∀ s : State, Memory.wf s.cfg s.mem = true →
      (s.i.toNat + 2 ≤ 0xFFF →
        ∃ t, exec (.ldB x) s = .next t ∧
          (t.readByte s.i.toNat).toNat = (s.readV x).toNat / 100 ∧
          (t.readByte (s.i.toNat + 1)).toNat = (s.readV x).toNat / 10 % 10 ∧
          (t.readByte (s.i.toNat + 2)).toNat = (s.readV x).toNat % 10 ∧
          (∀ a, a < s.i.toNat ∨ s.i.toNat + 2 < a → t.readByte a = s.readByte a) ∧
          OnlyChanges [.mem] s t) ∧
      (0xFFF < s.i.toNat + 2 →
        ∃ t, exec (.ldB x) s = .next t ∧
          Raised s t (0b1111#4 ++ nib x ++ 0b00110011#8) .dataOutOfBounds (max s.i.toNat 0x1000))

/-- R97: the block store of V0 to Vx at I, no other byte changed, I moved only under `LOADSTORE_I_INCREMENT`; or the
fault before any write. -/
def Obligations.BlockStore : Prop :=
  ∀ x : Reg, Encodes (0b1111#4 ++ nib x ++ 0b01010101#8) (.ldMemVx x) ∧ Config.default.loadStoreIIncrement = false ∧
    ∀ s : State, Memory.wf s.cfg s.mem = true →
      (s.i.toNat + x.val ≤ 0xFFF →
        ∃ t, exec (.ldMemVx x) s = .next t ∧
          (∀ r : Reg, r.val ≤ x.val → t.readByte (s.i.toNat + r.val) = s.readV r) ∧
          (∀ a, a < s.i.toNat ∨ s.i.toNat + x.val < a → t.readByte a = s.readByte a) ∧
          t.i.toNat = (if s.cfg.loadStoreIIncrement then s.i.toNat + x.val + 1 else s.i.toNat) ∧
          OnlyChanges [.mem, .i] s t) ∧
      (0xFFF < s.i.toNat + x.val →
        ∃ t, exec (.ldMemVx x) s = .next t ∧
          Raised s t (0b1111#4 ++ nib x ++ 0b01010101#8) .dataOutOfBounds (max s.i.toNat 0x1000))

/-- R98: the block load of V0 to Vx from I; registers above Vx and all memory are unchanged; or the fault before any
write. -/
def Obligations.BlockLoad : Prop :=
  ∀ x : Reg, Encodes (0b1111#4 ++ nib x ++ 0b01100101#8) (.ldVxMem x) ∧
    ∀ s : State,
      (s.i.toNat + x.val ≤ 0xFFF →
        ∃ t, exec (.ldVxMem x) s = .next t ∧
          (∀ r : Reg, t.readV r = if r.val ≤ x.val then s.readByte (s.i.toNat + r.val) else s.readV r) ∧
          t.i.toNat = (if s.cfg.loadStoreIIncrement then s.i.toNat + x.val + 1 else s.i.toNat) ∧
          OnlyChanges [.v, .i] s t) ∧
      (0xFFF < s.i.toNat + x.val →
        ∃ t, exec (.ldVxMem x) s = .next t ∧
          Raised s t (0b1111#4 ++ nib x ++ 0b01100101#8) .dataOutOfBounds (max s.i.toNat 0x1000))

/-- Derived from R97 and R98: storing V0 to Vx and loading them back from the same I restores every register, whatever was
done to the registers in between. -/
def Obligations.BlockStoreThenLoadRestores : Prop :=
  ∀ (x : Reg) (s t : State) (v : Vector Byte 16), Memory.wf s.cfg s.mem = true → s.i.toNat + x.val ≤ 0xFFF →
    exec (.ldMemVx x) s = .next t →
    ∃ u, exec (.ldVxMem x) { t with v := v, i := s.i } = .next u ∧
      (∀ r : Reg, r.val ≤ x.val → u.readV r = s.readV r) ∧ ∀ r : Reg, x.val < r.val → u.readV r = v[r]

/-- Derived (R49 is marked derived): a store is seen by the very next fetch: where Fx55 stores Vk and Vk+1 over the bytes at the
next `pc`, the next fetch reads them as its word; likewise the digits of Fx33. -/
def Obligations.NextFetchSeesTheStore : Prop :=
  ∀ (x : Reg) (s t : State), Memory.wf s.cfg s.mem = true →
    (exec (.ldMemVx x) s = .next t → s.i.toNat + x.val ≤ 0xFFF →
      ∀ (k : Reg) (h : k.val + 1 ≤ x.val), s.pc.toNat = s.i.toNat + k.val →
        t.fetchWord = s.readV k ++ s.readV ⟨k.val + 1, by omega⟩) ∧
    (exec (.ldB x) s = .next t → s.i.toNat + 2 ≤ 0xFFF → s.pc = s.i →
      t.fetchWord.toNat = (s.readV x).toNat / 100 * 256 + (s.readV x).toNat / 10 % 10)

/-! ### Display -/

/-- R101: CLS turns every pixel off, returns the all-off snapshot and leaves VF. -/
def Obligations.ClearTurnsEveryPixelOff : Prop :=
  Encodes 0x00E0#16 .cls ∧
  ∀ s : State, ∃ t, exec .cls s = .next t ∧ (∀ r c, Display.pixel t.display r c = false) ∧
    t.result = .update t.display ∧ OnlyChanges [.display, .result] s t

/-- R102, R103, and R104's two edge policies (its remark that a sprite covers no pixel twice is marked derived there): every pixel is
its old value XOR the sprite bit on it; VF is 1 exactly when some sprite bit met a pixel that was on, else 0; the display is
returned; nothing else changes. With a sprite byte above 0xFFF the instruction faults before any write. -/
def Obligations.DrawXorsSpriteAndReportsCollision : Prop :=
  ∀ (x y : Reg) (n : Fin 16), Encodes (0b1101#4 ++ nib x ++ nib y ++ nib n) (.drw x y n) ∧
    Config.default.spriteEdge = .clip ∧
    ∀ s : State,
      (n.val = 0 ∨ s.i.toNat + n.val - 1 ≤ 0xFFF →
        ∃ t, exec (.drw x y n) s = .next t ∧
          (∀ r c, Display.pixel t.display r c = (Display.pixel s.display r c != spriteBit s x y n r c)) ∧
          ((∃ r c, spriteBit s x y n r c = true ∧ Display.pixel s.display r c = true) → t.readV 15 = 1) ∧
          ((∀ r c, spriteBit s x y n r c = true → Display.pixel s.display r c = false) → t.readV 15 = 0) ∧
          (∀ r, r ≠ 15 → t.readV r = s.readV r) ∧
          t.result = .update t.display ∧ OnlyChanges [.v, .display, .result] s t) ∧
      (n.val ≠ 0 → 0xFFF < s.i.toNat + n.val - 1 →
        ∃ t, exec (.drw x y n) s = .next t ∧
          Raised s t (0b1101#4 ++ nib x ++ nib y ++ nib n) .dataOutOfBounds (max s.i.toNat 0x1000))

/-- R105, whose clause (b) is marked derived: (a) after CLS every pixel is off (also part of ClearTurnsEveryPixelOff); (b) the same DRW
twice restores the display, where x and y are not VF; (c) on a region where the sprite's pixels are all on, VF becomes 1 if
the sprite has a visible bit, and on a region where they are all off, 0. The premise on I says that DRW does not fault. -/
def Obligations.SpriteXorLaws : Prop :=
  (∀ s t : State, exec .cls s = .next t → ∀ r c, Display.pixel t.display r c = false) ∧
  (∀ (x y : Reg) (n : Fin 16) (s t u : State), x ≠ 15 → y ≠ 15 → (n.val = 0 ∨ s.i.toNat + n.val ≤ 0x1000) →
    exec (.drw x y n) s = .next t → exec (.drw x y n) t = .next u → u.display = s.display) ∧
  (∀ (x y : Reg) (n : Fin 16) (s t : State), (n.val = 0 ∨ s.i.toNat + n.val ≤ 0x1000) →
    exec (.drw x y n) s = .next t →
    ((∃ r c, spriteBit s x y n r c = true) →
      (∀ r c, spriteBit s x y n r c = true → Display.pixel s.display r c = true) → t.readV 15 = 1) ∧
    ((∀ r c, spriteBit s x y n r c = true → Display.pixel s.display r c = false) → t.readV 15 = 0))

/-! ### Keypad and timers -/

/-- R106, R107, R108: the key skips. Value k selects key k up to 15; above 15 MASK takes the low nibble and FAULT, the default, faults
before any write. -/
def Obligations.KeySkips : Prop :=
  ∀ x : Reg,
    Encodes (0b1110#4 ++ nib x ++ 0b10011110#8) (.skp x) ∧ Encodes (0b1110#4 ++ nib x ++ 0b10100001#8) (.sknp x) ∧
    Config.default.keyIndexPolicy = .fault ∧
    ∀ s : State,
      (∀ k : Fin 16, (s.readV x).toNat = k.val ∨
          (s.cfg.keyIndexPolicy = .mask ∧ 0x0F < (s.readV x).toNat ∧ (s.readV x).toNat % 16 = k.val) →
        (∃ t, exec (.skp x) s = .next t ∧ t.pc = (if s.keys[k] = true then s.pc + 2 else s.pc) ∧
          OnlyChanges [.pc] s t) ∧
        (∃ t, exec (.sknp x) s = .next t ∧ t.pc = (if s.keys[k] = true then s.pc else s.pc + 2) ∧
          OnlyChanges [.pc] s t)) ∧
      (s.cfg.keyIndexPolicy = .fault → 0x0F < (s.readV x).toNat →
        (∃ t, exec (.skp x) s = .next t ∧
          Raised s t (0b1110#4 ++ nib x ++ 0b10011110#8) .keyOutOfRange (s.readV x).toNat) ∧
        (∃ t, exec (.sknp x) s = .next t ∧
          Raised s t (0b1110#4 ++ nib x ++ 0b10100001#8) .keyOutOfRange (s.readV x).toNat))

/-- R109: Fx0A takes the lowest pressed key, or moves `pc` back by 2, so that a step on a waiting state fetches the same Fx0A
again, changing nothing else. -/
def Obligations.KeyWaitTakesLowestOrRepeats : Prop :=
  (∀ x : Reg, Encodes (0b1111#4 ++ nib x ++ 0b00001010#8) (.ldVxK x) ∧
    ∀ s : State,
      (∀ k : Fin 16, s.keys[k] = true → (∀ j : Fin 16, j.val < k.val → s.keys[j] = false) →
        ∃ t, exec (.ldVxK x) s = .next t ∧
          (∀ r, (t.readV r).toNat = if r = x then k.val else (s.readV r).toNat) ∧ OnlyChanges [.v] s t) ∧
      ((∀ k : Fin 16, s.keys[k] = false) →
        ∃ t, exec (.ldVxK x) s = .next t ∧ t.pc = s.pc - 2 ∧ OnlyChanges [.pc] s t)) ∧
  (∀ s : State, s.beginStep.Waiting →
    ∃ t, step s = .next t ∧ t.pc = s.pc ∧ t.result = .noUpdate ∧ t.fetchWord = s.fetchWord ∧
      OnlyChanges [.result] s.beginStep t)

/-- R110, R111, R112 and R122: the moves between a register and a timer, and the buzzer, on exactly while ST is above 0. -/
def Obligations.TimerMoves : Prop :=
  ∀ x : Reg,
    Encodes (0b1111#4 ++ nib x ++ 0b00000111#8) (.ldVxDt x) ∧
    Encodes (0b1111#4 ++ nib x ++ 0b00010101#8) (.ldDtVx x) ∧
    Encodes (0b1111#4 ++ nib x ++ 0b00011000#8) (.ldStVx x) ∧
    ∀ s : State,
      (s.buzzerActive = true ↔ 0 < s.st.toNat) ∧
      (∃ t, exec (.ldVxDt x) s = .next t ∧ (∀ r, t.readV r = if r = x then s.dt else s.readV r) ∧
        OnlyChanges [.v] s t) ∧
      (∃ t, exec (.ldDtVx x) s = .next t ∧ t.dt = s.readV x ∧ OnlyChanges [.dt] s t) ∧
      (∃ t, exec (.ldStVx x) s = .next t ∧ t.st = s.readV x ∧
        (t.buzzerActive = true ↔ 0 < (s.readV x).toNat) ∧ OnlyChanges [.st] s t)

/-- R120 (which marks "a tick at 0 leaves a timer at 0" as derived), over any number of ticks in a row (one tick is `tickN 1`):
each timer counts down by one a tick and stops at 0; a faulted core is unaffected; no other state changes. -/
def Obligations.TicksCountDownToZero : Prop :=
  ∀ (n : Nat) (s : State),
    State.tickN 1 s = s.tickTimers ∧
    (s.fault = none →
      (State.tickN n s).dt.toNat = s.dt.toNat - n ∧ (State.tickN n s).st.toNat = s.st.toNat - n ∧
      OnlyChanges [.dt, .st] s (State.tickN n s)) ∧
    (s.fault ≠ none → State.tickN n s = s)

/-! ### Construction, load and clock -/

/-- R29, R40, R128: what construction leaves, for every configuration that R9 admits and every positive frequency: everything zero
but `pc`, the clock speed and the font, at every address of memory; a frequency of 0 is refused. -/
def Obligations.ConstructionResetsEverything : Prop :=
  ∀ (cfg : Config) (f : Nat) (sch : List StepInput),
    (f = 0 → newCore cfg f sch = none) ∧
    (0 < f → cfg.valid = true →
      ∃ s, newCore cfg f sch = some s ∧ s.cfg = cfg ∧
        (∀ r, s.readV r = 0) ∧ s.i = 0 ∧ s.pc = 0x200 ∧ s.sp = 0 ∧ (∀ j : Fin 16, s.stack[j] = 0) ∧
        (∀ r c, Display.pixel s.display r c = false) ∧ s.dt = 0 ∧ s.st = 0 ∧
        s.speed = { num := 1, den := f } ∧ s.fault = none ∧
        ∀ a ≤ 0xFFF, s.readByte a =
          if cfg.fontLoaded = true ∧ cfg.fontBase ≤ a ∧ a ≤ cfg.fontBase + 79 then fontBytes.getD (a - cfg.fontBase) 0
          else 0)

/-- R130, R131: `load` copies the bytes to 0x200 and up and changes no other byte; it fails with no change when the bytes cannot be
supplied or are more than 3584, and is refused after a step or a load. -/
def Obligations.LoadCopiesOrFails : Prop :=
  ∀ s : State, Memory.wf s.cfg s.mem = true →
    (s.lifecycle = .constructed →
      s.load none = .error .io ∧
      ∀ bytes : List Byte,
        (3584 < bytes.length → s.load (some bytes) = .error .tooLarge) ∧
        (bytes.length ≤ 3584 →
          ∃ t, s.load (some bytes) = .ok t ∧
            (∀ a, t.readByte a =
              if 0x200 ≤ a ∧ a < 0x200 + bytes.length then bytes.getD (a - 0x200) 0 else s.readByte a) ∧
            OnlyChanges [.mem, .ports] s t ∧ ∀ again, t.load again = .error .notAdmitted)) ∧
    (∀ t, step s = .next t → ∀ bytes, t.load bytes = .error .notAdmitted)

/-- R22, R138: the clock speed is 1/frequency seconds from construction on; no step and no tick changes it, and no
instruction reads it: with another clock speed every instruction does the same. -/
def Obligations.ClockSpeedIsFixedAndUnread : Prop :=
  (∀ cfg f sch s, newCore cfg f sch = some s → s.speed.num = 1 ∧ s.speed.den = f ∧ 0 < f) ∧
  (∀ s t : State, step s = .next t → t.speed = s.speed ∧ s.tickTimers.speed = s.speed) ∧
  (∀ (i : Instr) (s t : State) (d : Duration), exec i s = .next t →
    exec i { s with clockSpeed := d } = .next { t with clockSpeed := d })

/-! ### Whole-machine rules and invariants -/

/-- The write table of 10_state.md R31: an instruction that completes changes I, `pc`, the stack, the display, a timer or memory
only where the table says so, and never the configuration, the clock speed or the ports. -/
def Obligations.OnlyTheListedInstructionsWrite : Prop :=
  ∀ (i : Instr) (s t : State), s.fault = none → exec i s = .next t → t.fault = none →
    (t.i ≠ s.i → (∃ nnn, i = .ldI nnn) ∨ (∃ x, i = .addI x) ∨ (∃ x, i = .ldF x) ∨
      (s.cfg.loadStoreIIncrement = true ∧ ((∃ x, i = .ldMemVx x) ∨ ∃ x, i = .ldVxMem x))) ∧
    (t.pc ≠ s.pc → i = .ret ∨ (∃ nnn, i = .jp nnn) ∨ (∃ nnn, i = .call nnn) ∨ (∃ nnn, i = .jpV0 nnn) ∨
      (∃ x kk, i = .seImm x kk) ∨ (∃ x kk, i = .sneImm x kk) ∨ (∃ x y, i = .seReg x y) ∨ (∃ x y, i = .sneReg x y) ∨
      (∃ x, i = .skp x) ∨ (∃ x, i = .sknp x) ∨ ∃ x, i = .ldVxK x) ∧
    (t.sp ≠ s.sp → i = .ret ∨ ∃ nnn, i = .call nnn) ∧
    (t.stack ≠ s.stack → ∃ nnn, i = .call nnn) ∧
    (t.display ≠ s.display → Draws i) ∧
    (t.dt ≠ s.dt → ∃ x, i = .ldDtVx x) ∧
    (t.st ≠ s.st → ∃ x, i = .ldStVx x) ∧
    ((∃ a, t.readByte a ≠ s.readByte a) → (∃ x, i = .ldB x) ∨ ∃ x, i = .ldMemVx x) ∧
    Part.cfg.Same s t ∧ Part.clockSpeed.Same s t ∧ Part.ports.Same s t

/-- R19: the display persists: a step leaves every pixel as it was unless it executed CLS or DRW without a fault. -/
def Obligations.DisplayChangesOnlyByClearAndDraw : Prop :=
  ∀ (s t : State), step s = .next t → ∀ r c, Display.pixel t.display r c ≠ Display.pixel s.display r c →
    t.fault = none ∧ ∃ w i, Fetches s.beginStep w ∧ decode s.cfg.admitGk w = .instr i ∧ Draws i

/-- Case (b) of R133: a parked core stays parked: every step comes back to the same state, but for the host's ticks,
the model's ports and the returned result. -/
def Obligations.ParkedCoreStaysParked : Prop :=
  ∀ s : State, s.Parked →
    ∃ t, step s = .next t ∧ t.Parked ∧ t.fault = none ∧ OnlyChanges [.dt, .st, .result, .ports] s t

/-- Model's choice (log entries 2 and 3): the reset state is a construction at the default parameters with 500 cycles a
second, and it meets the invariant. -/
def Obligations.ResetMeetsInvariant : Prop :=
  newCore Config.default 500 [StepInput.quiet] = some State.reset ∧ State.reset.Inv

/-- Every step keeps the invariant (Safety.lean), from every state that meets it, reachable or not: canonical memory, `pc` at most
0x10FE so that it never wraps, return addresses inside the space and even under STRICT, entry 0 of the stack zero, a
faulted core showing its record. Every instruction is covered. -/
def Obligations.StepKeepsInvariant : Prop :=
  ∀ s t : State, s.Inv → step s = .next t → t.Inv

/-- Every reachable state meets the invariant: any configuration and frequency, any load, any interleaving of steps and ticks, any
inputs. -/
def Obligations.ReachableStatesMeetInvariant : Prop :=
  ∀ s : State, Reachable s → s.Inv

/-- R16's sentence that `pc` never wraps, marked derived there, from every state, reachable or not: a step that does not fault was
fetched inside memory, at an even address under STRICT; neither the fetch's plus 2 nor the plus 2 of a skip after it wraps;
and `pc` afterwards is the address fetched from, 2 or 4 above it as exact numbers, or the target of a jump, call or return,
which from a state that meets the invariant is at most 0x10FE. -/
def Obligations.FetchedPcNeverWraps : Prop :=
  ∀ s t : State, step s = .next t → t.fault = none →
    s.pc.toNat + 1 ≤ 0xFFF ∧ (s.cfg.fetchAlignment = .strict → s.pc.toNat % 2 = 0) ∧
    (s.pc + 2).toNat = s.pc.toNat + 2 ∧ (s.pc + 4).toNat = s.pc.toNat + 4 ∧
    (t.pc.toNat = s.pc.toNat ∨ t.pc.toNat = s.pc.toNat + 2 ∨ t.pc.toNat = s.pc.toNat + 4 ∨
      ∃ w i, Fetches s.beginStep w ∧ decode s.cfg.admitGk w = .instr i ∧
        (i = .ret ∨ ∃ nnn, i = .jp nnn ∨ i = .call nnn ∨ i = .jpV0 nnn)) ∧
    (s.Inv → t.pc.toNat ≤ 0x10FE)
end

