-- ==== Sys2Proof/Laws/Encoding.lean ====
section
/-! SUPPORT. Field extraction from the encoder's formats: every field of R52 read back from each format of R54. -/

namespace Sys2Proof.Laws

open Sys2Proof

theorem extract_append_high {m n : Nat} (a : BitVec m) (b : BitVec n) (j k : Nat) :
    (a ++ b).extractLsb' (n + j) k = a.extractLsb' j k := by
  apply BitVec.eq_of_getLsbD_eq
  intro i hi
  simp [BitVec.getLsbD_append, hi, Nat.add_assoc]

theorem extract_append_low {m n : Nat} (a : BitVec m) (b : BitVec n) (j k : Nat) (h : j + k ≤ n) :
    (a ++ b).extractLsb' j k = b.extractLsb' j k := by
  apply BitVec.eq_of_getLsbD_eq
  intro i hi
  have : j + i < n := by omega
  simp [BitVec.getLsbD_append, hi, this]

theorem extract_all {n : Nat} (a : BitVec n) : a.extractLsb' 0 n = a := by simp

@[simp] theorem nib_toFin (r : Fin 16) : (nib r).toFin = r := rfl

@[simp] theorem opOf_encNNN (op : Nibble) (nnn : Addr) : opOf (encNNN op nnn) = op :=
  (extract_append_high op nnn 0 4).trans (extract_all op)

@[simp] theorem nnnOf_encNNN (op : Nibble) (nnn : Addr) : nnnOf (encNNN op nnn) = nnn :=
  (extract_append_low op nnn 0 12 (by omega)).trans (extract_all nnn)

@[simp] theorem opOf_encXKK (op : Nibble) (x : Reg) (kk : Byte) : opOf (encXKK op x kk) = op :=
  (extract_append_high (op ++ nib x) kk 4 4).trans
    ((extract_append_high op (nib x) 0 4).trans (extract_all op))

@[simp] theorem xOf_encXKK (op : Nibble) (x : Reg) (kk : Byte) : xOf (encXKK op x kk) = x :=
  congrArg BitVec.toFin ((extract_append_high (op ++ nib x) kk 0 4).trans
    ((extract_append_low op (nib x) 0 4 (by omega)).trans (extract_all (nib x))))

@[simp] theorem kkOf_encXKK (op : Nibble) (x : Reg) (kk : Byte) : kkOf (encXKK op x kk) = kk :=
  (extract_append_low (op ++ nib x) kk 0 8 (by omega)).trans (extract_all kk)

@[simp] theorem opOf_encXYN (op : Nibble) (x y : Reg) (n : Nibble) : opOf (encXYN op x y n) = op :=
  (extract_append_high (op ++ nib x ++ nib y) n 8 4).trans
    ((extract_append_high (op ++ nib x) (nib y) 4 4).trans
      ((extract_append_high op (nib x) 0 4).trans (extract_all op)))

@[simp] theorem xOf_encXYN (op : Nibble) (x y : Reg) (n : Nibble) : xOf (encXYN op x y n) = x :=
  congrArg BitVec.toFin ((extract_append_high (op ++ nib x ++ nib y) n 4 4).trans
    ((extract_append_high (op ++ nib x) (nib y) 0 4).trans
      ((extract_append_low op (nib x) 0 4 (by omega)).trans (extract_all (nib x)))))

@[simp] theorem yOf_encXYN (op : Nibble) (x y : Reg) (n : Nibble) : yOf (encXYN op x y n) = y :=
  congrArg BitVec.toFin ((extract_append_high (op ++ nib x ++ nib y) n 0 4).trans
    ((extract_append_low (op ++ nib x) (nib y) 0 4 (by omega)).trans (extract_all (nib y))))

@[simp] theorem nOf_encXYN (op : Nibble) (x y : Reg) (n : Nibble) : nOf (encXYN op x y n) = n :=
  (extract_append_low (op ++ nib x ++ nib y) n 0 4 (by omega)).trans (extract_all n)

/-- The two bytes of a word, put together again, are the word (R43). -/
theorem wordOfBytes_bytes (w : Word) : wordOfBytes (w.extractLsb' 8 8) (w.extractLsb' 0 8) = w := by
  apply BitVec.eq_of_getLsbD_eq
  intro i hi
  have h := BitVec.getLsbD_append (x := w.extractLsb' 8 8) (y := w.extractLsb' 0 8) (i := i)
  refine h.trans ?_
  by_cases h8 : i < 8
  · simp [h8]
  · have : i - 8 < 8 := by omega
    have e : 8 + (i - 8) = i := by omega
    simp [h8, this, e]

end Sys2Proof.Laws
end

