-- ==== Sys2Proof/Laws/Memory.lean ====
section
/-! SUPPORT. Memory: a read after a write, and that every memory operation keeps the canonical form (R36, R46). -/

namespace Sys2Proof.Machine

theorem Memory.lookup_insert (m : Memory) (a : Nat) (b : Byte) (k : Nat) :
    Memory.lookup k (Memory.insert a b m) = if k = a then some b else Memory.lookup k m := by
  induction m with
  | nil =>
    by_cases h : k = a
    · simp [Memory.insert, Memory.lookup, h]
    · simp [Memory.insert, Memory.lookup, h, Ne.symm h]
  | cons cell rest ih =>
    obtain ⟨c, d⟩ := cell
    by_cases h1 : a < c
    · by_cases h : k = a
      · simp [Memory.insert, Memory.lookup, h1, h]
      · simp [Memory.insert, Memory.lookup, h1, h, Ne.symm h]
    · by_cases h2 : a = c
      · by_cases h : k = a
        · simp [Memory.insert, Memory.lookup, h2, h]
        · have : ¬ c = k := by omega
          simp [Memory.insert, Memory.lookup, h2, this, Ne.symm this]
      · by_cases h : k = a
        · subst h
          have : ¬ c = k := by omega
          simp [Memory.insert, h1, h2, Memory.lookup, ih, this]
        · simp only [Memory.insert, h1, h2, if_false, Memory.lookup, ih, h]

theorem Memory.risingFrom_mono {m : Memory} {lo lo' : Nat} (h : lo' ≤ lo)
    (hr : Memory.risingFrom lo m = true) : Memory.risingFrom lo' m = true := by
  cases m with
  | nil => rfl
  | cons cell rest =>
    obtain ⟨c, d⟩ := cell
    simp only [Memory.risingFrom, Bool.and_eq_true, decide_eq_true_eq] at hr ⊢
    exact ⟨by omega, hr.2⟩

theorem Memory.lookup_below {m : Memory} {lo k : Nat} (hr : Memory.risingFrom lo m = true) (h : k < lo) :
    Memory.lookup k m = none := by
  induction m generalizing lo with
  | nil => rfl
  | cons cell rest ih =>
    obtain ⟨c, d⟩ := cell
    simp only [Memory.risingFrom, Bool.and_eq_true, decide_eq_true_eq] at hr
    have : ¬ c = k := by omega
    simp only [Memory.lookup, this, if_false]
    exact ih hr.2 (by omega)

theorem Memory.lookup_erase {m : Memory} {lo : Nat} (hr : Memory.risingFrom lo m = true) (a k : Nat) :
    Memory.lookup k (Memory.erase a m) = if k = a then none else Memory.lookup k m := by
  induction m generalizing lo with
  | nil => by_cases h : k = a <;> simp [Memory.erase, Memory.lookup]
  | cons cell rest ih =>
    obtain ⟨c, d⟩ := cell
    simp only [Memory.risingFrom, Bool.and_eq_true, decide_eq_true_eq] at hr
    by_cases h1 : a = c
    · subst h1
      by_cases h : k = a
      · subst h
        simp [Memory.erase, Memory.lookup_below hr.2 (Nat.lt_succ_self k)]
      · simp [Memory.erase, Memory.lookup, h, Ne.symm h]
    · by_cases h : k = a
      · subst h
        have : ¬ c = k := by omega
        simp [Memory.erase, Memory.lookup, h1, this, ih hr.2]
      · simp [Memory.erase, Memory.lookup, h1, h, ih hr.2]

theorem Memory.risingFrom_insert {m : Memory} {lo : Nat} (a : Nat) (b : Byte) (hr : Memory.risingFrom lo m = true)
    (h : lo ≤ a) : Memory.risingFrom lo (Memory.insert a b m) = true := by
  induction m generalizing lo with
  | nil => simp [Memory.insert, Memory.risingFrom, h]
  | cons cell rest ih =>
    obtain ⟨c, d⟩ := cell
    simp only [Memory.risingFrom, Bool.and_eq_true, decide_eq_true_eq] at hr
    by_cases h1 : a < c
    · simp only [Memory.insert, h1, if_true, Memory.risingFrom, Bool.and_eq_true, decide_eq_true_eq]
      exact ⟨h, by omega, hr.2⟩
    · by_cases h2 : a = c
      · subst h2
        simp [Memory.insert, Memory.risingFrom, h, hr.2]
      · simp only [Memory.insert, h1, h2, if_false, Memory.risingFrom, Bool.and_eq_true, decide_eq_true_eq]
        exact ⟨hr.1, ih hr.2 (by omega)⟩

theorem Memory.risingFrom_erase {m : Memory} {lo : Nat} (a : Nat) (hr : Memory.risingFrom lo m = true) :
    Memory.risingFrom lo (Memory.erase a m) = true := by
  induction m generalizing lo with
  | nil => rfl
  | cons cell rest ih =>
    obtain ⟨c, d⟩ := cell
    simp only [Memory.risingFrom, Bool.and_eq_true, decide_eq_true_eq] at hr
    by_cases h1 : a = c
    · simpa [Memory.erase, h1] using Memory.risingFrom_mono (by omega) hr.2
    · simp only [Memory.erase, h1, if_false, Memory.risingFrom, Bool.and_eq_true, decide_eq_true_eq]
      exact ⟨hr.1, ih hr.2⟩

theorem Memory.mem_insert {m : Memory} {a : Nat} {b : Byte} {cell : Host.Cell}
    (h : cell ∈ Memory.insert a b m) : cell = (a, b) ∨ cell ∈ m := by
  induction m with
  | nil => simpa [Memory.insert] using h
  | cons head rest ih =>
    obtain ⟨c, d⟩ := head
    by_cases h1 : a < c
    · simpa [Memory.insert, h1] using h
    · by_cases h2 : a = c
      · subst h2
        rcases (by simpa [Memory.insert] using h : cell = (a, b) ∨ cell ∈ rest) with h | h
        · exact .inl h
        · exact .inr (List.mem_cons_of_mem _ h)
      · rcases (by simpa [Memory.insert, h1, h2] using h : cell = (c, d) ∨ cell ∈ Memory.insert a b rest) with h | h
        · exact .inr (h ▸ List.mem_cons_self)
        · exact (ih h).imp_right (List.mem_cons_of_mem _)

theorem Memory.mem_erase {m : Memory} {a : Nat} {cell : Host.Cell} (h : cell ∈ Memory.erase a m) : cell ∈ m := by
  induction m with
  | nil => exact h
  | cons head rest ih =>
    obtain ⟨c, d⟩ := head
    by_cases h1 : a = c
    · exact List.mem_cons_of_mem _ (by simpa [Memory.erase, h1] using h)
    · rcases (by simpa [Memory.erase, h1] using h : cell = (c, d) ∨ cell ∈ Memory.erase a rest) with h | h
      · exact h ▸ List.mem_cons_self
      · exact List.mem_cons_of_mem _ (ih h)

theorem Memory.wf_iff (cfg : Config) (m : Memory) :
    Memory.wf cfg m = true ↔
      Memory.risingFrom 0 m = true ∧ ∀ cell ∈ m, cell.1 ≤ Config.addrMax ∧ cell.2 ≠ resetByte cfg cell.1 := by
  simp [Memory.wf, List.all_eq_true]

/-- Reset memory, with nothing listed, is canonical. -/
theorem Memory.wf_nil (cfg : Config) : Memory.wf cfg [] = true := rfl

/-- A write inside the space keeps the canonical form. -/
theorem Memory.wf_write {cfg : Config} {m : Memory} (hm : Memory.wf cfg m = true) {a : Nat}
    (ha : a ≤ Config.addrMax) (b : Byte) : Memory.wf cfg (Memory.write cfg m a b) = true := by
  rw [Memory.wf_iff] at hm ⊢
  unfold Memory.write
  split
  · exact ⟨Memory.risingFrom_erase a hm.1, fun cell h => hm.2 cell (Memory.mem_erase h)⟩
  · next hb =>
    refine ⟨Memory.risingFrom_insert a b hm.1 (Nat.zero_le a), fun cell h => ?_⟩
    rcases Memory.mem_insert h with rfl | h
    · exact ⟨ha, hb⟩
    · exact hm.2 cell h

/-- A block write inside the space keeps the canonical form. -/
theorem Memory.wf_writeBlock {cfg : Config} {m : Memory} (hm : Memory.wf cfg m = true) {base : Nat}
    {bytes : List Byte} (h : base + bytes.length ≤ Config.addrMax + 1) :
    Memory.wf cfg (Memory.writeBlock cfg m base bytes) = true := by
  induction bytes generalizing m base with
  | nil => exact hm
  | cons b rest ih =>
    simp only [List.length_cons] at h
    exact ih (Memory.wf_write hm (by omega) b) (by omega)

/-- A write rises where the memory did, whatever the address. -/
theorem Memory.rising_write {cfg : Config} {m : Memory} (hm : Memory.risingFrom 0 m = true) (a : Nat) (b : Byte) :
    Memory.risingFrom 0 (Memory.write cfg m a b) = true := by
  unfold Memory.write
  split
  · exact Memory.risingFrom_erase a hm
  · exact Memory.risingFrom_insert a b hm (Nat.zero_le a)

theorem Memory.rising_of_wf {cfg : Config} {m : Memory} (hm : Memory.wf cfg m = true) :
    Memory.risingFrom 0 m = true := ((Memory.wf_iff cfg m).1 hm).1

/-- A read after a write: the written byte at its address, the old byte elsewhere (R36). -/
theorem Memory.read_write {cfg : Config} {m : Memory} (hm : Memory.risingFrom 0 m = true) (a : Nat) (b : Byte)
    (k : Nat) : Memory.read cfg (Memory.write cfg m a b) k = if k = a then b else Memory.read cfg m k := by
  unfold Memory.write Memory.read
  split
  · next hb => by_cases h : k = a <;> simp [Memory.lookup_erase hm, h, hb]
  · by_cases h : k = a <;> simp [Memory.lookup_insert, h]

/-- A read after a block write: the block's byte inside the block, the old byte outside. -/
theorem Memory.read_writeBlock {cfg : Config} {m : Memory} (hm : Memory.risingFrom 0 m = true) (base : Nat)
    (bytes : List Byte) (k : Nat) :
    Memory.read cfg (Memory.writeBlock cfg m base bytes) k =
      if base ≤ k ∧ k < base + bytes.length then bytes.getD (k - base) 0#8 else Memory.read cfg m k := by
  induction bytes generalizing m base with
  | nil =>
    have : ¬ (base ≤ k ∧ k < base + ([] : List Byte).length) := by simp
    simp only [Memory.writeBlock, this, if_false]
  | cons b rest ih =>
    simp only [Memory.writeBlock, ih (Memory.rising_write hm base b), Memory.read_write hm, List.length_cons]
    by_cases h0 : k = base
    · subst h0
      simp
    · by_cases h1 : base + 1 ≤ k ∧ k < base + 1 + rest.length
      · have h2 : base ≤ k ∧ k < base + (rest.length + 1) := by omega
        have h3 : k - base = (k - (base + 1)) + 1 := by omega
        simp [h1, h2, h3]
      · have h2 : ¬ (base ≤ k ∧ k < base + (rest.length + 1)) := by omega
        simp only [h1, h2, h0, if_false]

theorem Memory.length_readBlock (cfg : Config) (m : Memory) (base count : Nat) :
    (Memory.readBlock cfg m base count).length = count := by
  induction count generalizing base with
  | zero => rfl
  | succ n ih => simp [Memory.readBlock, ih]

/-- The bytes of a block read are the bytes of memory, lowest address first. -/
theorem Memory.getElem_readBlock (cfg : Config) (m : Memory) (base count k : Nat)
    (h : k < (Memory.readBlock cfg m base count).length) :
    (Memory.readBlock cfg m base count)[k] = Memory.read cfg m (base + k) := by
  induction count generalizing base k with
  | zero => simp [Memory.readBlock] at h
  | succ n ih =>
    cases k with
    | zero => rfl
    | succ j =>
      have hj : j < (Memory.readBlock cfg m (base + 1) n).length := by
        simpa [Memory.readBlock] using h
      simpa [Memory.readBlock, Nat.add_comm, Nat.add_left_comm] using ih (base + 1) j hj

end Sys2Proof.Machine
end

