-- ==== Sys2Proof/Laws/State.lean ====
section
/-! SUPPORT. Every state update of the model, field by field: what it writes and what it leaves alone. -/

namespace Sys2Proof.Machine

variable (s : State)

/-! ### writeV -/

@[simp] theorem State.writeV_cfg (x : Reg) (b : Byte) : (s.writeV x b).cfg = s.cfg := rfl
@[simp] theorem State.writeV_v (x : Reg) (b : Byte) : (s.writeV x b).v = s.v.set x b := rfl
@[simp] theorem State.writeV_i (x : Reg) (b : Byte) : (s.writeV x b).i = s.i := rfl
@[simp] theorem State.writeV_pc (x : Reg) (b : Byte) : (s.writeV x b).pc = s.pc := rfl
@[simp] theorem State.writeV_sp (x : Reg) (b : Byte) : (s.writeV x b).sp = s.sp := rfl
@[simp] theorem State.writeV_stack (x : Reg) (b : Byte) : (s.writeV x b).stack = s.stack := rfl
@[simp] theorem State.writeV_display (x : Reg) (b : Byte) : (s.writeV x b).display = s.display := rfl
@[simp] theorem State.writeV_dt (x : Reg) (b : Byte) : (s.writeV x b).dt = s.dt := rfl
@[simp] theorem State.writeV_st (x : Reg) (b : Byte) : (s.writeV x b).st = s.st := rfl
@[simp] theorem State.writeV_clockSpeed (x : Reg) (b : Byte) : (s.writeV x b).clockSpeed = s.clockSpeed := rfl
@[simp] theorem State.writeV_mem (x : Reg) (b : Byte) : (s.writeV x b).mem = s.mem := rfl
@[simp] theorem State.writeV_fault (x : Reg) (b : Byte) : (s.writeV x b).fault = s.fault := rfl
@[simp] theorem State.writeV_lifecycle (x : Reg) (b : Byte) : (s.writeV x b).lifecycle = s.lifecycle := rfl
@[simp] theorem State.writeV_keys (x : Reg) (b : Byte) : (s.writeV x b).keys = s.keys := rfl
@[simp] theorem State.writeV_rnd (x : Reg) (b : Byte) : (s.writeV x b).rnd = s.rnd := rfl
@[simp] theorem State.writeV_result (x : Reg) (b : Byte) : (s.writeV x b).result = s.result := rfl
@[simp] theorem State.writeV_schedule (x : Reg) (b : Byte) : (s.writeV x b).schedule = s.schedule := rfl
@[simp] theorem State.writeV_draws (x : Reg) (b : Byte) : (s.writeV x b).draws = s.draws := rfl
@[simp] theorem State.writeV_readByte (x : Reg) (b : Byte) (addr : Nat) : (s.writeV x b).readByte addr = s.readByte addr := rfl

/-! ### setI -/

@[simp] theorem State.setI_cfg (a : Word) : (s.setI a).cfg = s.cfg := rfl
@[simp] theorem State.setI_v (a : Word) : (s.setI a).v = s.v := rfl
@[simp] theorem State.setI_i (a : Word) : (s.setI a).i = a := rfl
@[simp] theorem State.setI_pc (a : Word) : (s.setI a).pc = s.pc := rfl
@[simp] theorem State.setI_sp (a : Word) : (s.setI a).sp = s.sp := rfl
@[simp] theorem State.setI_stack (a : Word) : (s.setI a).stack = s.stack := rfl
@[simp] theorem State.setI_display (a : Word) : (s.setI a).display = s.display := rfl
@[simp] theorem State.setI_dt (a : Word) : (s.setI a).dt = s.dt := rfl
@[simp] theorem State.setI_st (a : Word) : (s.setI a).st = s.st := rfl
@[simp] theorem State.setI_clockSpeed (a : Word) : (s.setI a).clockSpeed = s.clockSpeed := rfl
@[simp] theorem State.setI_mem (a : Word) : (s.setI a).mem = s.mem := rfl
@[simp] theorem State.setI_fault (a : Word) : (s.setI a).fault = s.fault := rfl
@[simp] theorem State.setI_lifecycle (a : Word) : (s.setI a).lifecycle = s.lifecycle := rfl
@[simp] theorem State.setI_keys (a : Word) : (s.setI a).keys = s.keys := rfl
@[simp] theorem State.setI_rnd (a : Word) : (s.setI a).rnd = s.rnd := rfl
@[simp] theorem State.setI_result (a : Word) : (s.setI a).result = s.result := rfl
@[simp] theorem State.setI_schedule (a : Word) : (s.setI a).schedule = s.schedule := rfl
@[simp] theorem State.setI_draws (a : Word) : (s.setI a).draws = s.draws := rfl
@[simp] theorem State.setI_readV (a : Word) (r : Reg) : (s.setI a).readV r = s.readV r := rfl
@[simp] theorem State.setI_readByte (a : Word) (addr : Nat) : (s.setI a).readByte addr = s.readByte addr := rfl

/-! ### setPc -/

@[simp] theorem State.setPc_cfg (a : Word) : (s.setPc a).cfg = s.cfg := rfl
@[simp] theorem State.setPc_v (a : Word) : (s.setPc a).v = s.v := rfl
@[simp] theorem State.setPc_i (a : Word) : (s.setPc a).i = s.i := rfl
@[simp] theorem State.setPc_pc (a : Word) : (s.setPc a).pc = a := rfl
@[simp] theorem State.setPc_sp (a : Word) : (s.setPc a).sp = s.sp := rfl
@[simp] theorem State.setPc_stack (a : Word) : (s.setPc a).stack = s.stack := rfl
@[simp] theorem State.setPc_display (a : Word) : (s.setPc a).display = s.display := rfl
@[simp] theorem State.setPc_dt (a : Word) : (s.setPc a).dt = s.dt := rfl
@[simp] theorem State.setPc_st (a : Word) : (s.setPc a).st = s.st := rfl
@[simp] theorem State.setPc_clockSpeed (a : Word) : (s.setPc a).clockSpeed = s.clockSpeed := rfl
@[simp] theorem State.setPc_mem (a : Word) : (s.setPc a).mem = s.mem := rfl
@[simp] theorem State.setPc_fault (a : Word) : (s.setPc a).fault = s.fault := rfl
@[simp] theorem State.setPc_lifecycle (a : Word) : (s.setPc a).lifecycle = s.lifecycle := rfl
@[simp] theorem State.setPc_keys (a : Word) : (s.setPc a).keys = s.keys := rfl
@[simp] theorem State.setPc_rnd (a : Word) : (s.setPc a).rnd = s.rnd := rfl
@[simp] theorem State.setPc_result (a : Word) : (s.setPc a).result = s.result := rfl
@[simp] theorem State.setPc_schedule (a : Word) : (s.setPc a).schedule = s.schedule := rfl
@[simp] theorem State.setPc_draws (a : Word) : (s.setPc a).draws = s.draws := rfl
@[simp] theorem State.setPc_readV (a : Word) (r : Reg) : (s.setPc a).readV r = s.readV r := rfl
@[simp] theorem State.setPc_readByte (a : Word) (addr : Nat) : (s.setPc a).readByte addr = s.readByte addr := rfl

/-! ### setDt -/

@[simp] theorem State.setDt_cfg (b : Byte) : (s.setDt b).cfg = s.cfg := rfl
@[simp] theorem State.setDt_v (b : Byte) : (s.setDt b).v = s.v := rfl
@[simp] theorem State.setDt_i (b : Byte) : (s.setDt b).i = s.i := rfl
@[simp] theorem State.setDt_pc (b : Byte) : (s.setDt b).pc = s.pc := rfl
@[simp] theorem State.setDt_sp (b : Byte) : (s.setDt b).sp = s.sp := rfl
@[simp] theorem State.setDt_stack (b : Byte) : (s.setDt b).stack = s.stack := rfl
@[simp] theorem State.setDt_display (b : Byte) : (s.setDt b).display = s.display := rfl
@[simp] theorem State.setDt_dt (b : Byte) : (s.setDt b).dt = b := rfl
@[simp] theorem State.setDt_st (b : Byte) : (s.setDt b).st = s.st := rfl
@[simp] theorem State.setDt_clockSpeed (b : Byte) : (s.setDt b).clockSpeed = s.clockSpeed := rfl
@[simp] theorem State.setDt_mem (b : Byte) : (s.setDt b).mem = s.mem := rfl
@[simp] theorem State.setDt_fault (b : Byte) : (s.setDt b).fault = s.fault := rfl
@[simp] theorem State.setDt_lifecycle (b : Byte) : (s.setDt b).lifecycle = s.lifecycle := rfl
@[simp] theorem State.setDt_keys (b : Byte) : (s.setDt b).keys = s.keys := rfl
@[simp] theorem State.setDt_rnd (b : Byte) : (s.setDt b).rnd = s.rnd := rfl
@[simp] theorem State.setDt_result (b : Byte) : (s.setDt b).result = s.result := rfl
@[simp] theorem State.setDt_schedule (b : Byte) : (s.setDt b).schedule = s.schedule := rfl
@[simp] theorem State.setDt_draws (b : Byte) : (s.setDt b).draws = s.draws := rfl
@[simp] theorem State.setDt_readV (b : Byte) (r : Reg) : (s.setDt b).readV r = s.readV r := rfl
@[simp] theorem State.setDt_readByte (b : Byte) (addr : Nat) : (s.setDt b).readByte addr = s.readByte addr := rfl

/-! ### setSt -/

@[simp] theorem State.setSt_cfg (b : Byte) : (s.setSt b).cfg = s.cfg := rfl
@[simp] theorem State.setSt_v (b : Byte) : (s.setSt b).v = s.v := rfl
@[simp] theorem State.setSt_i (b : Byte) : (s.setSt b).i = s.i := rfl
@[simp] theorem State.setSt_pc (b : Byte) : (s.setSt b).pc = s.pc := rfl
@[simp] theorem State.setSt_sp (b : Byte) : (s.setSt b).sp = s.sp := rfl
@[simp] theorem State.setSt_stack (b : Byte) : (s.setSt b).stack = s.stack := rfl
@[simp] theorem State.setSt_display (b : Byte) : (s.setSt b).display = s.display := rfl
@[simp] theorem State.setSt_dt (b : Byte) : (s.setSt b).dt = s.dt := rfl
@[simp] theorem State.setSt_st (b : Byte) : (s.setSt b).st = b := rfl
@[simp] theorem State.setSt_clockSpeed (b : Byte) : (s.setSt b).clockSpeed = s.clockSpeed := rfl
@[simp] theorem State.setSt_mem (b : Byte) : (s.setSt b).mem = s.mem := rfl
@[simp] theorem State.setSt_fault (b : Byte) : (s.setSt b).fault = s.fault := rfl
@[simp] theorem State.setSt_lifecycle (b : Byte) : (s.setSt b).lifecycle = s.lifecycle := rfl
@[simp] theorem State.setSt_keys (b : Byte) : (s.setSt b).keys = s.keys := rfl
@[simp] theorem State.setSt_rnd (b : Byte) : (s.setSt b).rnd = s.rnd := rfl
@[simp] theorem State.setSt_result (b : Byte) : (s.setSt b).result = s.result := rfl
@[simp] theorem State.setSt_schedule (b : Byte) : (s.setSt b).schedule = s.schedule := rfl
@[simp] theorem State.setSt_draws (b : Byte) : (s.setSt b).draws = s.draws := rfl
@[simp] theorem State.setSt_readV (b : Byte) (r : Reg) : (s.setSt b).readV r = s.readV r := rfl
@[simp] theorem State.setSt_readByte (b : Byte) (addr : Nat) : (s.setSt b).readByte addr = s.readByte addr := rfl

/-! ### push -/

@[simp] theorem State.push_cfg : (s.push).cfg = s.cfg := rfl
@[simp] theorem State.push_v : (s.push).v = s.v := rfl
@[simp] theorem State.push_i : (s.push).i = s.i := rfl
@[simp] theorem State.push_pc : (s.push).pc = s.pc := rfl
@[simp] theorem State.push_sp : (s.push).sp = s.sp + 1 := rfl
@[simp] theorem State.push_stack : (s.push).stack = s.stack.set (s.sp + 1 : Fin 16) s.pc := rfl
@[simp] theorem State.push_display : (s.push).display = s.display := rfl
@[simp] theorem State.push_dt : (s.push).dt = s.dt := rfl
@[simp] theorem State.push_st : (s.push).st = s.st := rfl
@[simp] theorem State.push_clockSpeed : (s.push).clockSpeed = s.clockSpeed := rfl
@[simp] theorem State.push_mem : (s.push).mem = s.mem := rfl
@[simp] theorem State.push_fault : (s.push).fault = s.fault := rfl
@[simp] theorem State.push_lifecycle : (s.push).lifecycle = s.lifecycle := rfl
@[simp] theorem State.push_keys : (s.push).keys = s.keys := rfl
@[simp] theorem State.push_rnd : (s.push).rnd = s.rnd := rfl
@[simp] theorem State.push_result : (s.push).result = s.result := rfl
@[simp] theorem State.push_schedule : (s.push).schedule = s.schedule := rfl
@[simp] theorem State.push_draws : (s.push).draws = s.draws := rfl
@[simp] theorem State.push_readV (r : Reg) : (s.push).readV r = s.readV r := rfl
@[simp] theorem State.push_readByte (addr : Nat) : (s.push).readByte addr = s.readByte addr := rfl

/-! ### pop -/

@[simp] theorem State.pop_cfg : (s.pop).cfg = s.cfg := rfl
@[simp] theorem State.pop_v : (s.pop).v = s.v := rfl
@[simp] theorem State.pop_i : (s.pop).i = s.i := rfl
@[simp] theorem State.pop_pc : (s.pop).pc = s.stack[s.sp] := rfl
@[simp] theorem State.pop_sp : (s.pop).sp = s.sp - 1 := rfl
@[simp] theorem State.pop_stack : (s.pop).stack = s.stack := rfl
@[simp] theorem State.pop_display : (s.pop).display = s.display := rfl
@[simp] theorem State.pop_dt : (s.pop).dt = s.dt := rfl
@[simp] theorem State.pop_st : (s.pop).st = s.st := rfl
@[simp] theorem State.pop_clockSpeed : (s.pop).clockSpeed = s.clockSpeed := rfl
@[simp] theorem State.pop_mem : (s.pop).mem = s.mem := rfl
@[simp] theorem State.pop_fault : (s.pop).fault = s.fault := rfl
@[simp] theorem State.pop_lifecycle : (s.pop).lifecycle = s.lifecycle := rfl
@[simp] theorem State.pop_keys : (s.pop).keys = s.keys := rfl
@[simp] theorem State.pop_rnd : (s.pop).rnd = s.rnd := rfl
@[simp] theorem State.pop_result : (s.pop).result = s.result := rfl
@[simp] theorem State.pop_schedule : (s.pop).schedule = s.schedule := rfl
@[simp] theorem State.pop_draws : (s.pop).draws = s.draws := rfl
@[simp] theorem State.pop_readV (r : Reg) : (s.pop).readV r = s.readV r := rfl
@[simp] theorem State.pop_readByte (addr : Nat) : (s.pop).readByte addr = s.readByte addr := rfl

/-! ### writeBlock -/

@[simp] theorem State.writeBlock_cfg (base : Nat) (bytes : List Byte) : (s.writeBlock base bytes).cfg = s.cfg := rfl
@[simp] theorem State.writeBlock_v (base : Nat) (bytes : List Byte) : (s.writeBlock base bytes).v = s.v := rfl
@[simp] theorem State.writeBlock_i (base : Nat) (bytes : List Byte) : (s.writeBlock base bytes).i = s.i := rfl
@[simp] theorem State.writeBlock_pc (base : Nat) (bytes : List Byte) : (s.writeBlock base bytes).pc = s.pc := rfl
@[simp] theorem State.writeBlock_sp (base : Nat) (bytes : List Byte) : (s.writeBlock base bytes).sp = s.sp := rfl
@[simp] theorem State.writeBlock_stack (base : Nat) (bytes : List Byte) : (s.writeBlock base bytes).stack = s.stack := rfl
@[simp] theorem State.writeBlock_display (base : Nat) (bytes : List Byte) : (s.writeBlock base bytes).display = s.display := rfl
@[simp] theorem State.writeBlock_dt (base : Nat) (bytes : List Byte) : (s.writeBlock base bytes).dt = s.dt := rfl
@[simp] theorem State.writeBlock_st (base : Nat) (bytes : List Byte) : (s.writeBlock base bytes).st = s.st := rfl
@[simp] theorem State.writeBlock_clockSpeed (base : Nat) (bytes : List Byte) : (s.writeBlock base bytes).clockSpeed = s.clockSpeed := rfl
@[simp] theorem State.writeBlock_mem (base : Nat) (bytes : List Byte) : (s.writeBlock base bytes).mem = Memory.writeBlock s.cfg s.mem base bytes := rfl
@[simp] theorem State.writeBlock_fault (base : Nat) (bytes : List Byte) : (s.writeBlock base bytes).fault = s.fault := rfl
@[simp] theorem State.writeBlock_lifecycle (base : Nat) (bytes : List Byte) : (s.writeBlock base bytes).lifecycle = s.lifecycle := rfl
@[simp] theorem State.writeBlock_keys (base : Nat) (bytes : List Byte) : (s.writeBlock base bytes).keys = s.keys := rfl
@[simp] theorem State.writeBlock_rnd (base : Nat) (bytes : List Byte) : (s.writeBlock base bytes).rnd = s.rnd := rfl
@[simp] theorem State.writeBlock_result (base : Nat) (bytes : List Byte) : (s.writeBlock base bytes).result = s.result := rfl
@[simp] theorem State.writeBlock_schedule (base : Nat) (bytes : List Byte) : (s.writeBlock base bytes).schedule = s.schedule := rfl
@[simp] theorem State.writeBlock_draws (base : Nat) (bytes : List Byte) : (s.writeBlock base bytes).draws = s.draws := rfl
@[simp] theorem State.writeBlock_readV (base : Nat) (bytes : List Byte) (r : Reg) : (s.writeBlock base bytes).readV r = s.readV r := rfl

/-! ### show -/

@[simp] theorem State.show_cfg (d : Display) : (s.show d).cfg = s.cfg := rfl
@[simp] theorem State.show_v (d : Display) : (s.show d).v = s.v := rfl
@[simp] theorem State.show_i (d : Display) : (s.show d).i = s.i := rfl
@[simp] theorem State.show_pc (d : Display) : (s.show d).pc = s.pc := rfl
@[simp] theorem State.show_sp (d : Display) : (s.show d).sp = s.sp := rfl
@[simp] theorem State.show_stack (d : Display) : (s.show d).stack = s.stack := rfl
@[simp] theorem State.show_display (d : Display) : (s.show d).display = d := rfl
@[simp] theorem State.show_dt (d : Display) : (s.show d).dt = s.dt := rfl
@[simp] theorem State.show_st (d : Display) : (s.show d).st = s.st := rfl
@[simp] theorem State.show_clockSpeed (d : Display) : (s.show d).clockSpeed = s.clockSpeed := rfl
@[simp] theorem State.show_mem (d : Display) : (s.show d).mem = s.mem := rfl
@[simp] theorem State.show_fault (d : Display) : (s.show d).fault = s.fault := rfl
@[simp] theorem State.show_lifecycle (d : Display) : (s.show d).lifecycle = s.lifecycle := rfl
@[simp] theorem State.show_keys (d : Display) : (s.show d).keys = s.keys := rfl
@[simp] theorem State.show_rnd (d : Display) : (s.show d).rnd = s.rnd := rfl
@[simp] theorem State.show_result (d : Display) : (s.show d).result = .update d := rfl
@[simp] theorem State.show_schedule (d : Display) : (s.show d).schedule = s.schedule := rfl
@[simp] theorem State.show_draws (d : Display) : (s.show d).draws = s.draws := rfl
@[simp] theorem State.show_readV (d : Display) (r : Reg) : (s.show d).readV r = s.readV r := rfl
@[simp] theorem State.show_readByte (d : Display) (addr : Nat) : (s.show d).readByte addr = s.readByte addr := rfl

/-! ### takeFault -/

@[simp] theorem State.takeFault_cfg (k : FaultKind) (w : Option Word) (d : Word) : (s.takeFault k w d).cfg = s.cfg := rfl
@[simp] theorem State.takeFault_v (k : FaultKind) (w : Option Word) (d : Word) : (s.takeFault k w d).v = s.v := rfl
@[simp] theorem State.takeFault_i (k : FaultKind) (w : Option Word) (d : Word) : (s.takeFault k w d).i = s.i := rfl
@[simp] theorem State.takeFault_pc (k : FaultKind) (w : Option Word) (d : Word) : (s.takeFault k w d).pc = s.pc := rfl
@[simp] theorem State.takeFault_sp (k : FaultKind) (w : Option Word) (d : Word) : (s.takeFault k w d).sp = s.sp := rfl
@[simp] theorem State.takeFault_stack (k : FaultKind) (w : Option Word) (d : Word) : (s.takeFault k w d).stack = s.stack := rfl
@[simp] theorem State.takeFault_display (k : FaultKind) (w : Option Word) (d : Word) : (s.takeFault k w d).display = s.display := rfl
@[simp] theorem State.takeFault_dt (k : FaultKind) (w : Option Word) (d : Word) : (s.takeFault k w d).dt = s.dt := rfl
@[simp] theorem State.takeFault_st (k : FaultKind) (w : Option Word) (d : Word) : (s.takeFault k w d).st = s.st := rfl
@[simp] theorem State.takeFault_clockSpeed (k : FaultKind) (w : Option Word) (d : Word) : (s.takeFault k w d).clockSpeed = s.clockSpeed := rfl
@[simp] theorem State.takeFault_mem (k : FaultKind) (w : Option Word) (d : Word) : (s.takeFault k w d).mem = s.mem := rfl
@[simp] theorem State.takeFault_fault (k : FaultKind) (w : Option Word) (d : Word) : (s.takeFault k w d).fault = some ⟨k, s.pc, w, d⟩ := rfl
@[simp] theorem State.takeFault_lifecycle (k : FaultKind) (w : Option Word) (d : Word) : (s.takeFault k w d).lifecycle = s.lifecycle := rfl
@[simp] theorem State.takeFault_keys (k : FaultKind) (w : Option Word) (d : Word) : (s.takeFault k w d).keys = s.keys := rfl
@[simp] theorem State.takeFault_rnd (k : FaultKind) (w : Option Word) (d : Word) : (s.takeFault k w d).rnd = s.rnd := rfl
@[simp] theorem State.takeFault_result (k : FaultKind) (w : Option Word) (d : Word) : (s.takeFault k w d).result = .faulted ⟨k, s.pc, w, d⟩ := rfl
@[simp] theorem State.takeFault_schedule (k : FaultKind) (w : Option Word) (d : Word) : (s.takeFault k w d).schedule = s.schedule := rfl
@[simp] theorem State.takeFault_draws (k : FaultKind) (w : Option Word) (d : Word) : (s.takeFault k w d).draws = s.draws := rfl
@[simp] theorem State.takeFault_readV (k : FaultKind) (w : Option Word) (d : Word) (r : Reg) : (s.takeFault k w d).readV r = s.readV r := rfl
@[simp] theorem State.takeFault_readByte (k : FaultKind) (w : Option Word) (d : Word) (addr : Nat) : (s.takeFault k w d).readByte addr = s.readByte addr := rfl

/-! ### raiseFault -/

@[simp] theorem State.raiseFault_cfg (i : Instr) (k : FaultKind) (d : Word) : (s.raiseFault i k d).cfg = s.cfg := rfl
@[simp] theorem State.raiseFault_v (i : Instr) (k : FaultKind) (d : Word) : (s.raiseFault i k d).v = s.v := rfl
@[simp] theorem State.raiseFault_i (i : Instr) (k : FaultKind) (d : Word) : (s.raiseFault i k d).i = s.i := rfl
@[simp] theorem State.raiseFault_pc (i : Instr) (k : FaultKind) (d : Word) : (s.raiseFault i k d).pc = s.pc - 2 := rfl
@[simp] theorem State.raiseFault_sp (i : Instr) (k : FaultKind) (d : Word) : (s.raiseFault i k d).sp = s.sp := rfl
@[simp] theorem State.raiseFault_stack (i : Instr) (k : FaultKind) (d : Word) : (s.raiseFault i k d).stack = s.stack := rfl
@[simp] theorem State.raiseFault_display (i : Instr) (k : FaultKind) (d : Word) : (s.raiseFault i k d).display = s.display := rfl
@[simp] theorem State.raiseFault_dt (i : Instr) (k : FaultKind) (d : Word) : (s.raiseFault i k d).dt = s.dt := rfl
@[simp] theorem State.raiseFault_st (i : Instr) (k : FaultKind) (d : Word) : (s.raiseFault i k d).st = s.st := rfl
@[simp] theorem State.raiseFault_clockSpeed (i : Instr) (k : FaultKind) (d : Word) : (s.raiseFault i k d).clockSpeed = s.clockSpeed := rfl
@[simp] theorem State.raiseFault_mem (i : Instr) (k : FaultKind) (d : Word) : (s.raiseFault i k d).mem = s.mem := rfl
@[simp] theorem State.raiseFault_fault (i : Instr) (k : FaultKind) (d : Word) : (s.raiseFault i k d).fault = some ⟨k, s.pc - 2, some (encode i), d⟩ := rfl
@[simp] theorem State.raiseFault_lifecycle (i : Instr) (k : FaultKind) (d : Word) : (s.raiseFault i k d).lifecycle = s.lifecycle := rfl
@[simp] theorem State.raiseFault_keys (i : Instr) (k : FaultKind) (d : Word) : (s.raiseFault i k d).keys = s.keys := rfl
@[simp] theorem State.raiseFault_rnd (i : Instr) (k : FaultKind) (d : Word) : (s.raiseFault i k d).rnd = s.rnd := rfl
@[simp] theorem State.raiseFault_result (i : Instr) (k : FaultKind) (d : Word) : (s.raiseFault i k d).result = .faulted ⟨k, s.pc - 2, some (encode i), d⟩ := rfl
@[simp] theorem State.raiseFault_schedule (i : Instr) (k : FaultKind) (d : Word) : (s.raiseFault i k d).schedule = s.schedule := rfl
@[simp] theorem State.raiseFault_draws (i : Instr) (k : FaultKind) (d : Word) : (s.raiseFault i k d).draws = s.draws := rfl
@[simp] theorem State.raiseFault_readV (i : Instr) (k : FaultKind) (d : Word) (r : Reg) : (s.raiseFault i k d).readV r = s.readV r := rfl
@[simp] theorem State.raiseFault_readByte (i : Instr) (k : FaultKind) (d : Word) (addr : Nat) : (s.raiseFault i k d).readByte addr = s.readByte addr := rfl

/-! ### fetched -/

@[simp] theorem State.fetched_cfg : (s.fetched).cfg = s.cfg := rfl
@[simp] theorem State.fetched_v : (s.fetched).v = s.v := rfl
@[simp] theorem State.fetched_i : (s.fetched).i = s.i := rfl
@[simp] theorem State.fetched_pc : (s.fetched).pc = s.pc + 2 := rfl
@[simp] theorem State.fetched_sp : (s.fetched).sp = s.sp := rfl
@[simp] theorem State.fetched_stack : (s.fetched).stack = s.stack := rfl
@[simp] theorem State.fetched_display : (s.fetched).display = s.display := rfl
@[simp] theorem State.fetched_dt : (s.fetched).dt = s.dt := rfl
@[simp] theorem State.fetched_st : (s.fetched).st = s.st := rfl
@[simp] theorem State.fetched_clockSpeed : (s.fetched).clockSpeed = s.clockSpeed := rfl
@[simp] theorem State.fetched_mem : (s.fetched).mem = s.mem := rfl
@[simp] theorem State.fetched_fault : (s.fetched).fault = s.fault := rfl
@[simp] theorem State.fetched_lifecycle : (s.fetched).lifecycle = s.lifecycle := rfl
@[simp] theorem State.fetched_keys : (s.fetched).keys = s.keys := rfl
@[simp] theorem State.fetched_rnd : (s.fetched).rnd = s.rnd := rfl
@[simp] theorem State.fetched_result : (s.fetched).result = .noUpdate := rfl
@[simp] theorem State.fetched_schedule : (s.fetched).schedule = s.schedule := rfl
@[simp] theorem State.fetched_draws : (s.fetched).draws = s.draws := rfl
@[simp] theorem State.fetched_readV (r : Reg) : (s.fetched).readV r = s.readV r := rfl
@[simp] theorem State.fetched_readByte (addr : Nat) : (s.fetched).readByte addr = s.readByte addr := rfl

/-! ### takeInput -/

@[simp] theorem State.takeInput_cfg : (s.takeInput).cfg = s.cfg := rfl
@[simp] theorem State.takeInput_v : (s.takeInput).v = s.v := rfl
@[simp] theorem State.takeInput_i : (s.takeInput).i = s.i := rfl
@[simp] theorem State.takeInput_pc : (s.takeInput).pc = s.pc := rfl
@[simp] theorem State.takeInput_sp : (s.takeInput).sp = s.sp := rfl
@[simp] theorem State.takeInput_stack : (s.takeInput).stack = s.stack := rfl
@[simp] theorem State.takeInput_display : (s.takeInput).display = s.display := rfl
@[simp] theorem State.takeInput_dt : (s.takeInput).dt = s.dt := rfl
@[simp] theorem State.takeInput_st : (s.takeInput).st = s.st := rfl
@[simp] theorem State.takeInput_clockSpeed : (s.takeInput).clockSpeed = s.clockSpeed := rfl
@[simp] theorem State.takeInput_mem : (s.takeInput).mem = s.mem := rfl
@[simp] theorem State.takeInput_fault : (s.takeInput).fault = s.fault := rfl
@[simp] theorem State.takeInput_lifecycle : (s.takeInput).lifecycle = .running := rfl
@[simp] theorem State.takeInput_keys : (s.takeInput).keys = s.nextInput.keys := rfl
@[simp] theorem State.takeInput_rnd : (s.takeInput).rnd = s.nextInput.rnd := rfl
@[simp] theorem State.takeInput_result : (s.takeInput).result = s.result := rfl
@[simp] theorem State.takeInput_schedule : (s.takeInput).schedule = s.schedule.tail := rfl
@[simp] theorem State.takeInput_draws : (s.takeInput).draws = if s.schedule.isEmpty then s.draws + 1 else s.draws := rfl
@[simp] theorem State.takeInput_readV (r : Reg) : (s.takeInput).readV r = s.readV r := rfl
@[simp] theorem State.takeInput_readByte (addr : Nat) : (s.takeInput).readByte addr = s.readByte addr := rfl

/-! ### skipIf -/

@[simp] theorem State.skipIf_cfg (c : Bool) : (s.skipIf c).cfg = s.cfg := by cases c <;> rfl
@[simp] theorem State.skipIf_v (c : Bool) : (s.skipIf c).v = s.v := by cases c <;> rfl
@[simp] theorem State.skipIf_i (c : Bool) : (s.skipIf c).i = s.i := by cases c <;> rfl
@[simp] theorem State.skipIf_pc (c : Bool) : (s.skipIf c).pc = if c then s.pc + 2 else s.pc := by cases c <;> rfl
@[simp] theorem State.skipIf_sp (c : Bool) : (s.skipIf c).sp = s.sp := by cases c <;> rfl
@[simp] theorem State.skipIf_stack (c : Bool) : (s.skipIf c).stack = s.stack := by cases c <;> rfl
@[simp] theorem State.skipIf_display (c : Bool) : (s.skipIf c).display = s.display := by cases c <;> rfl
@[simp] theorem State.skipIf_dt (c : Bool) : (s.skipIf c).dt = s.dt := by cases c <;> rfl
@[simp] theorem State.skipIf_st (c : Bool) : (s.skipIf c).st = s.st := by cases c <;> rfl
@[simp] theorem State.skipIf_clockSpeed (c : Bool) : (s.skipIf c).clockSpeed = s.clockSpeed := by cases c <;> rfl
@[simp] theorem State.skipIf_mem (c : Bool) : (s.skipIf c).mem = s.mem := by cases c <;> rfl
@[simp] theorem State.skipIf_fault (c : Bool) : (s.skipIf c).fault = s.fault := by cases c <;> rfl
@[simp] theorem State.skipIf_lifecycle (c : Bool) : (s.skipIf c).lifecycle = s.lifecycle := by cases c <;> rfl
@[simp] theorem State.skipIf_keys (c : Bool) : (s.skipIf c).keys = s.keys := by cases c <;> rfl
@[simp] theorem State.skipIf_rnd (c : Bool) : (s.skipIf c).rnd = s.rnd := by cases c <;> rfl
@[simp] theorem State.skipIf_result (c : Bool) : (s.skipIf c).result = s.result := by cases c <;> rfl
@[simp] theorem State.skipIf_schedule (c : Bool) : (s.skipIf c).schedule = s.schedule := by cases c <;> rfl
@[simp] theorem State.skipIf_draws (c : Bool) : (s.skipIf c).draws = s.draws := by cases c <;> rfl
@[simp] theorem State.skipIf_readV (c : Bool) (r : Reg) : (s.skipIf c).readV r = s.readV r := by simp [State.readV]
@[simp] theorem State.skipIf_readByte (c : Bool) (addr : Nat) : (s.skipIf c).readByte addr = s.readByte addr := by simp [State.readByte]

/-! ### advanceI -/

@[simp] theorem State.advanceI_cfg (x : Reg) : (s.advanceI x).cfg = s.cfg := by unfold State.advanceI; split <;> rfl
@[simp] theorem State.advanceI_v (x : Reg) : (s.advanceI x).v = s.v := by unfold State.advanceI; split <;> rfl
@[simp] theorem State.advanceI_i (x : Reg) : (s.advanceI x).i = if s.cfg.loadStoreIIncrement then BitVec.ofNat 16 (s.i.toNat + x.val + 1) else s.i := by unfold State.advanceI; split <;> rfl
@[simp] theorem State.advanceI_pc (x : Reg) : (s.advanceI x).pc = s.pc := by unfold State.advanceI; split <;> rfl
@[simp] theorem State.advanceI_sp (x : Reg) : (s.advanceI x).sp = s.sp := by unfold State.advanceI; split <;> rfl
@[simp] theorem State.advanceI_stack (x : Reg) : (s.advanceI x).stack = s.stack := by unfold State.advanceI; split <;> rfl
@[simp] theorem State.advanceI_display (x : Reg) : (s.advanceI x).display = s.display := by unfold State.advanceI; split <;> rfl
@[simp] theorem State.advanceI_dt (x : Reg) : (s.advanceI x).dt = s.dt := by unfold State.advanceI; split <;> rfl
@[simp] theorem State.advanceI_st (x : Reg) : (s.advanceI x).st = s.st := by unfold State.advanceI; split <;> rfl
@[simp] theorem State.advanceI_clockSpeed (x : Reg) : (s.advanceI x).clockSpeed = s.clockSpeed := by unfold State.advanceI; split <;> rfl
@[simp] theorem State.advanceI_mem (x : Reg) : (s.advanceI x).mem = s.mem := by unfold State.advanceI; split <;> rfl
@[simp] theorem State.advanceI_fault (x : Reg) : (s.advanceI x).fault = s.fault := by unfold State.advanceI; split <;> rfl
@[simp] theorem State.advanceI_lifecycle (x : Reg) : (s.advanceI x).lifecycle = s.lifecycle := by unfold State.advanceI; split <;> rfl
@[simp] theorem State.advanceI_keys (x : Reg) : (s.advanceI x).keys = s.keys := by unfold State.advanceI; split <;> rfl
@[simp] theorem State.advanceI_rnd (x : Reg) : (s.advanceI x).rnd = s.rnd := by unfold State.advanceI; split <;> rfl
@[simp] theorem State.advanceI_result (x : Reg) : (s.advanceI x).result = s.result := by unfold State.advanceI; split <;> rfl
@[simp] theorem State.advanceI_schedule (x : Reg) : (s.advanceI x).schedule = s.schedule := by unfold State.advanceI; split <;> rfl
@[simp] theorem State.advanceI_draws (x : Reg) : (s.advanceI x).draws = s.draws := by unfold State.advanceI; split <;> rfl
@[simp] theorem State.advanceI_readV (x : Reg) (r : Reg) : (s.advanceI x).readV r = s.readV r := by simp [State.readV]
@[simp] theorem State.advanceI_readByte (x : Reg) (addr : Nat) : (s.advanceI x).readByte addr = s.readByte addr := by simp [State.readByte]

/-! ### writeLogic -/

@[simp] theorem State.writeLogic_cfg (x : Reg) (b : Byte) : (s.writeLogic x b).cfg = s.cfg := by unfold State.writeLogic; split <;> rfl
@[simp] theorem State.writeLogic_v (x : Reg) (b : Byte) : (s.writeLogic x b).v = if s.cfg.logicVfReset then (s.v.set x b).set vf 0 else s.v.set x b := by unfold State.writeLogic; split <;> rfl
@[simp] theorem State.writeLogic_i (x : Reg) (b : Byte) : (s.writeLogic x b).i = s.i := by unfold State.writeLogic; split <;> rfl
@[simp] theorem State.writeLogic_pc (x : Reg) (b : Byte) : (s.writeLogic x b).pc = s.pc := by unfold State.writeLogic; split <;> rfl
@[simp] theorem State.writeLogic_sp (x : Reg) (b : Byte) : (s.writeLogic x b).sp = s.sp := by unfold State.writeLogic; split <;> rfl
@[simp] theorem State.writeLogic_stack (x : Reg) (b : Byte) : (s.writeLogic x b).stack = s.stack := by unfold State.writeLogic; split <;> rfl
@[simp] theorem State.writeLogic_display (x : Reg) (b : Byte) : (s.writeLogic x b).display = s.display := by unfold State.writeLogic; split <;> rfl
@[simp] theorem State.writeLogic_dt (x : Reg) (b : Byte) : (s.writeLogic x b).dt = s.dt := by unfold State.writeLogic; split <;> rfl
@[simp] theorem State.writeLogic_st (x : Reg) (b : Byte) : (s.writeLogic x b).st = s.st := by unfold State.writeLogic; split <;> rfl
@[simp] theorem State.writeLogic_clockSpeed (x : Reg) (b : Byte) : (s.writeLogic x b).clockSpeed = s.clockSpeed := by unfold State.writeLogic; split <;> rfl
@[simp] theorem State.writeLogic_mem (x : Reg) (b : Byte) : (s.writeLogic x b).mem = s.mem := by unfold State.writeLogic; split <;> rfl
@[simp] theorem State.writeLogic_fault (x : Reg) (b : Byte) : (s.writeLogic x b).fault = s.fault := by unfold State.writeLogic; split <;> rfl
@[simp] theorem State.writeLogic_lifecycle (x : Reg) (b : Byte) : (s.writeLogic x b).lifecycle = s.lifecycle := by unfold State.writeLogic; split <;> rfl
@[simp] theorem State.writeLogic_keys (x : Reg) (b : Byte) : (s.writeLogic x b).keys = s.keys := by unfold State.writeLogic; split <;> rfl
@[simp] theorem State.writeLogic_rnd (x : Reg) (b : Byte) : (s.writeLogic x b).rnd = s.rnd := by unfold State.writeLogic; split <;> rfl
@[simp] theorem State.writeLogic_result (x : Reg) (b : Byte) : (s.writeLogic x b).result = s.result := by unfold State.writeLogic; split <;> rfl
@[simp] theorem State.writeLogic_schedule (x : Reg) (b : Byte) : (s.writeLogic x b).schedule = s.schedule := by unfold State.writeLogic; split <;> rfl
@[simp] theorem State.writeLogic_draws (x : Reg) (b : Byte) : (s.writeLogic x b).draws = s.draws := by unfold State.writeLogic; split <;> rfl
@[simp] theorem State.writeLogic_readByte (x : Reg) (b : Byte) (addr : Nat) : (s.writeLogic x b).readByte addr = s.readByte addr := by simp [State.readByte]

/-! ### writeWithFlag -/

@[simp] theorem State.writeWithFlag_cfg (x : Reg) (b f : Byte) : (s.writeWithFlag x b f).cfg = s.cfg := rfl
@[simp] theorem State.writeWithFlag_v (x : Reg) (b f : Byte) : (s.writeWithFlag x b f).v = (s.v.set x b).set vf f := rfl
@[simp] theorem State.writeWithFlag_i (x : Reg) (b f : Byte) : (s.writeWithFlag x b f).i = s.i := rfl
@[simp] theorem State.writeWithFlag_pc (x : Reg) (b f : Byte) : (s.writeWithFlag x b f).pc = s.pc := rfl
@[simp] theorem State.writeWithFlag_sp (x : Reg) (b f : Byte) : (s.writeWithFlag x b f).sp = s.sp := rfl
@[simp] theorem State.writeWithFlag_stack (x : Reg) (b f : Byte) : (s.writeWithFlag x b f).stack = s.stack := rfl
@[simp] theorem State.writeWithFlag_display (x : Reg) (b f : Byte) : (s.writeWithFlag x b f).display = s.display := rfl
@[simp] theorem State.writeWithFlag_dt (x : Reg) (b f : Byte) : (s.writeWithFlag x b f).dt = s.dt := rfl
@[simp] theorem State.writeWithFlag_st (x : Reg) (b f : Byte) : (s.writeWithFlag x b f).st = s.st := rfl
@[simp] theorem State.writeWithFlag_clockSpeed (x : Reg) (b f : Byte) : (s.writeWithFlag x b f).clockSpeed = s.clockSpeed := rfl
@[simp] theorem State.writeWithFlag_mem (x : Reg) (b f : Byte) : (s.writeWithFlag x b f).mem = s.mem := rfl
@[simp] theorem State.writeWithFlag_fault (x : Reg) (b f : Byte) : (s.writeWithFlag x b f).fault = s.fault := rfl
@[simp] theorem State.writeWithFlag_lifecycle (x : Reg) (b f : Byte) : (s.writeWithFlag x b f).lifecycle = s.lifecycle := rfl
@[simp] theorem State.writeWithFlag_keys (x : Reg) (b f : Byte) : (s.writeWithFlag x b f).keys = s.keys := rfl
@[simp] theorem State.writeWithFlag_rnd (x : Reg) (b f : Byte) : (s.writeWithFlag x b f).rnd = s.rnd := rfl
@[simp] theorem State.writeWithFlag_result (x : Reg) (b f : Byte) : (s.writeWithFlag x b f).result = s.result := rfl
@[simp] theorem State.writeWithFlag_schedule (x : Reg) (b f : Byte) : (s.writeWithFlag x b f).schedule = s.schedule := rfl
@[simp] theorem State.writeWithFlag_draws (x : Reg) (b f : Byte) : (s.writeWithFlag x b f).draws = s.draws := rfl
@[simp] theorem State.writeWithFlag_readByte (x : Reg) (b f : Byte) (addr : Nat) : (s.writeWithFlag x b f).readByte addr = s.readByte addr := rfl

/-! ### tickTimers -/

@[simp] theorem State.tickTimers_cfg : (s.tickTimers).cfg = s.cfg := by cases h : s.fault <;> simp [State.tickTimers, h]
@[simp] theorem State.tickTimers_v : (s.tickTimers).v = s.v := by cases h : s.fault <;> simp [State.tickTimers, h]
@[simp] theorem State.tickTimers_i : (s.tickTimers).i = s.i := by cases h : s.fault <;> simp [State.tickTimers, h]
@[simp] theorem State.tickTimers_pc : (s.tickTimers).pc = s.pc := by cases h : s.fault <;> simp [State.tickTimers, h]
@[simp] theorem State.tickTimers_sp : (s.tickTimers).sp = s.sp := by cases h : s.fault <;> simp [State.tickTimers, h]
@[simp] theorem State.tickTimers_stack : (s.tickTimers).stack = s.stack := by cases h : s.fault <;> simp [State.tickTimers, h]
@[simp] theorem State.tickTimers_display : (s.tickTimers).display = s.display := by cases h : s.fault <;> simp [State.tickTimers, h]
@[simp] theorem State.tickTimers_dt : (s.tickTimers).dt = if s.fault = none then countDown s.dt else s.dt := by cases h : s.fault <;> simp [State.tickTimers, h]
@[simp] theorem State.tickTimers_st : (s.tickTimers).st = if s.fault = none then countDown s.st else s.st := by cases h : s.fault <;> simp [State.tickTimers, h]
@[simp] theorem State.tickTimers_clockSpeed : (s.tickTimers).clockSpeed = s.clockSpeed := by cases h : s.fault <;> simp [State.tickTimers, h]
@[simp] theorem State.tickTimers_mem : (s.tickTimers).mem = s.mem := by cases h : s.fault <;> simp [State.tickTimers, h]
@[simp] theorem State.tickTimers_fault : (s.tickTimers).fault = s.fault := by cases h : s.fault <;> simp [State.tickTimers, h]
@[simp] theorem State.tickTimers_lifecycle : (s.tickTimers).lifecycle = s.lifecycle := by cases h : s.fault <;> simp [State.tickTimers, h]
@[simp] theorem State.tickTimers_keys : (s.tickTimers).keys = s.keys := by cases h : s.fault <;> simp [State.tickTimers, h]
@[simp] theorem State.tickTimers_rnd : (s.tickTimers).rnd = s.rnd := by cases h : s.fault <;> simp [State.tickTimers, h]
@[simp] theorem State.tickTimers_result : (s.tickTimers).result = s.result := by cases h : s.fault <;> simp [State.tickTimers, h]
@[simp] theorem State.tickTimers_schedule : (s.tickTimers).schedule = s.schedule := by cases h : s.fault <;> simp [State.tickTimers, h]
@[simp] theorem State.tickTimers_draws : (s.tickTimers).draws = s.draws := by cases h : s.fault <;> simp [State.tickTimers, h]
@[simp] theorem State.tickTimers_readV (r : Reg) : (s.tickTimers).readV r = s.readV r := by simp [State.readV]
@[simp] theorem State.tickTimers_readByte (addr : Nat) : (s.tickTimers).readByte addr = s.readByte addr := by simp [State.readByte]

/-! ### tickN and beginStep -/

@[simp] theorem State.tickN_cfg (n : Nat) : (State.tickN n s).cfg = s.cfg := by
  induction n generalizing s with
  | zero => rfl
  | succ n ih => simp [State.tickN, ih]
@[simp] theorem State.tickN_v (n : Nat) : (State.tickN n s).v = s.v := by
  induction n generalizing s with
  | zero => rfl
  | succ n ih => simp [State.tickN, ih]
@[simp] theorem State.tickN_i (n : Nat) : (State.tickN n s).i = s.i := by
  induction n generalizing s with
  | zero => rfl
  | succ n ih => simp [State.tickN, ih]
@[simp] theorem State.tickN_pc (n : Nat) : (State.tickN n s).pc = s.pc := by
  induction n generalizing s with
  | zero => rfl
  | succ n ih => simp [State.tickN, ih]
@[simp] theorem State.tickN_sp (n : Nat) : (State.tickN n s).sp = s.sp := by
  induction n generalizing s with
  | zero => rfl
  | succ n ih => simp [State.tickN, ih]
@[simp] theorem State.tickN_stack (n : Nat) : (State.tickN n s).stack = s.stack := by
  induction n generalizing s with
  | zero => rfl
  | succ n ih => simp [State.tickN, ih]
@[simp] theorem State.tickN_display (n : Nat) : (State.tickN n s).display = s.display := by
  induction n generalizing s with
  | zero => rfl
  | succ n ih => simp [State.tickN, ih]
@[simp] theorem State.tickN_clockSpeed (n : Nat) : (State.tickN n s).clockSpeed = s.clockSpeed := by
  induction n generalizing s with
  | zero => rfl
  | succ n ih => simp [State.tickN, ih]
@[simp] theorem State.tickN_mem (n : Nat) : (State.tickN n s).mem = s.mem := by
  induction n generalizing s with
  | zero => rfl
  | succ n ih => simp [State.tickN, ih]
@[simp] theorem State.tickN_fault (n : Nat) : (State.tickN n s).fault = s.fault := by
  induction n generalizing s with
  | zero => rfl
  | succ n ih => simp [State.tickN, ih]
@[simp] theorem State.tickN_lifecycle (n : Nat) : (State.tickN n s).lifecycle = s.lifecycle := by
  induction n generalizing s with
  | zero => rfl
  | succ n ih => simp [State.tickN, ih]
@[simp] theorem State.tickN_keys (n : Nat) : (State.tickN n s).keys = s.keys := by
  induction n generalizing s with
  | zero => rfl
  | succ n ih => simp [State.tickN, ih]
@[simp] theorem State.tickN_rnd (n : Nat) : (State.tickN n s).rnd = s.rnd := by
  induction n generalizing s with
  | zero => rfl
  | succ n ih => simp [State.tickN, ih]
@[simp] theorem State.tickN_result (n : Nat) : (State.tickN n s).result = s.result := by
  induction n generalizing s with
  | zero => rfl
  | succ n ih => simp [State.tickN, ih]
@[simp] theorem State.tickN_schedule (n : Nat) : (State.tickN n s).schedule = s.schedule := by
  induction n generalizing s with
  | zero => rfl
  | succ n ih => simp [State.tickN, ih]
@[simp] theorem State.tickN_draws (n : Nat) : (State.tickN n s).draws = s.draws := by
  induction n generalizing s with
  | zero => rfl
  | succ n ih => simp [State.tickN, ih]
@[simp] theorem State.tickN_readV (n : Nat) (r : Reg) : (State.tickN n s).readV r = s.readV r := by
  simp [State.readV]
@[simp] theorem State.tickN_readByte (n k : Nat) : (State.tickN n s).readByte k = s.readByte k := by
  simp [State.readByte]

@[simp] theorem State.beginStep_cfg : s.beginStep.cfg = s.cfg := by simp [State.beginStep]
@[simp] theorem State.beginStep_v : s.beginStep.v = s.v := by simp [State.beginStep]
@[simp] theorem State.beginStep_i : s.beginStep.i = s.i := by simp [State.beginStep]
@[simp] theorem State.beginStep_pc : s.beginStep.pc = s.pc := by simp [State.beginStep]
@[simp] theorem State.beginStep_sp : s.beginStep.sp = s.sp := by simp [State.beginStep]
@[simp] theorem State.beginStep_stack : s.beginStep.stack = s.stack := by simp [State.beginStep]
@[simp] theorem State.beginStep_display : s.beginStep.display = s.display := by simp [State.beginStep]
@[simp] theorem State.beginStep_clockSpeed : s.beginStep.clockSpeed = s.clockSpeed := by simp [State.beginStep]
@[simp] theorem State.beginStep_mem : s.beginStep.mem = s.mem := by simp [State.beginStep]
@[simp] theorem State.beginStep_fault : s.beginStep.fault = s.fault := by simp [State.beginStep]
@[simp] theorem State.beginStep_lifecycle : s.beginStep.lifecycle = .running := by simp [State.beginStep]
@[simp] theorem State.beginStep_keys : s.beginStep.keys = s.nextInput.keys := by simp [State.beginStep]
@[simp] theorem State.beginStep_rnd : s.beginStep.rnd = s.nextInput.rnd := by simp [State.beginStep]
@[simp] theorem State.beginStep_result : s.beginStep.result = s.result := by simp [State.beginStep]
@[simp] theorem State.beginStep_schedule : s.beginStep.schedule = s.schedule.tail := by simp [State.beginStep]
@[simp] theorem State.beginStep_draws : s.beginStep.draws = if s.schedule.isEmpty then s.draws + 1 else s.draws := by simp [State.beginStep]
@[simp] theorem State.beginStep_readV (r : Reg) : s.beginStep.readV r = s.readV r := by simp [State.beginStep]
@[simp] theorem State.beginStep_readByte (k : Nat) : s.beginStep.readByte k = s.readByte k := by simp [State.beginStep]

end Sys2Proof.Machine
end

