-- ==== Sys2Proof/Laws/Ops.lean ====
section
/-! SUPPORT. One lemma for each shared operation that says what it does: bounds check, register writes, block register
load, block store, ticks, the fetch checks, and the cases of a step's cycle. -/

namespace Sys2Proof.Machine

/-! ### The bounds check (R37) -/

theorem firstBad_eq_none {base count : Nat} :
    firstBad base count = none ↔ count = 0 ∨ base + count ≤ Config.addrMax + 1 := by
  unfold firstBad
  split
  · simp [*]
  · split <;> simp <;> omega

theorem firstBad_eq_some {base count bad : Nat} :
    firstBad base count = some bad ↔
      count ≠ 0 ∧ Config.addrMax + 1 < base + count ∧ bad = max base (Config.addrMax + 1) := by
  unfold firstBad
  split
  · simp [*]
  · split
    · simp
      omega
    · simp
      omega

/-! ### Registers -/

/-- A register write reaches its own register and no other (R13). -/
@[simp] theorem State.readV_writeV (s : State) (x : Reg) (b : Byte) (r : Reg) :
    (s.writeV x b).readV r = if r = x then b else s.readV r := by
  by_cases h : r = x
  · subst h
    simp [State.readV, State.writeV]
  · have : (x : Nat) ≠ r := fun e => h (Fin.ext e.symm)
    simp [State.readV, State.writeV, h, this]

/-- A result with its flag: VF ends as the flag, whatever the destination (R79). -/
@[simp] theorem State.readV_writeWithFlag (s : State) (x : Reg) (b f : Byte) (r : Reg) :
    (s.writeWithFlag x b f).readV r = if r = vf then f else if r = x then b else s.readV r := by
  simp [State.writeWithFlag]

/-- A logic result: VF is written only under `LOGIC_VF_RESET` (R83 to R85). -/
@[simp] theorem State.readV_writeLogic (s : State) (x : Reg) (b : Byte) (r : Reg) :
    (s.writeLogic x b).readV r =
      if s.cfg.logicVfReset = true ∧ r = vf then 0 else if r = x then b else s.readV r := by
  unfold State.writeLogic
  split <;> simp [*]

/-- A block register load puts `bytes[k]` into register `start + k` and leaves the others (R98). -/
theorem loadRegs_getElem (v : Vector Byte 16) (start : Nat) (bytes : List Byte) (r : Fin 16) :
    (loadRegs v start bytes)[r] =
      if start ≤ r.val ∧ r.val < start + bytes.length then bytes.getD (r.val - start) 0#8 else v[r] := by
  induction bytes generalizing v start with
  | nil =>
    have : ¬ (start ≤ r.val ∧ r.val < start + ([] : List Byte).length) := by simp
    simp only [loadRegs, this, if_false]
  | cons b rest ih =>
    simp only [loadRegs, ih, List.length_cons]
    by_cases h0 : r.val = start
    · have h1 : ¬ (start + 1 ≤ r.val ∧ r.val < start + 1 + rest.length) := by omega
      have h2 : start ≤ r.val ∧ r.val < start + (rest.length + 1) := by omega
      simp only [h1, h2, if_false, if_true, and_self]
      simp [h0]
    · by_cases h1 : start + 1 ≤ r.val ∧ r.val < start + 1 + rest.length
      · have h2 : start ≤ r.val ∧ r.val < start + (rest.length + 1) := by omega
        have h3 : r.val - start = (r.val - (start + 1)) + 1 := by omega
        simp [h1, h2, h3]
      · have h2 : ¬ (start ≤ r.val ∧ r.val < start + (rest.length + 1)) := by omega
        simp only [h1, h2, if_false]
        have : start ≠ r.val := fun e => h0 e.symm
        simp [this]

/-! ### Memory of a state -/

/-- A block store writes its own bytes and no other (R36, R37). -/
theorem State.readByte_writeBlock (s : State) (hm : Memory.risingFrom 0 s.mem = true) (base : Nat)
    (bytes : List Byte) (k : Nat) :
    (s.writeBlock base bytes).readByte k =
      if base ≤ k ∧ k < base + bytes.length then bytes.getD (k - base) 0#8 else s.readByte k :=
  Memory.read_writeBlock hm base bytes k

theorem State.length_readBlock (s : State) (base count : Nat) : (s.readBlock base count).length = count :=
  Memory.length_readBlock s.cfg s.mem base count

theorem State.getD_readBlock (s : State) (base count k : Nat) (h : k < count) :
    (s.readBlock base count).getD k 0#8 = s.readByte (base + k) := by
  have hl : k < (s.readBlock base count).length := by rw [State.length_readBlock]; exact h
  rw [List.getD_eq_getElem _ _ hl]
  exact Memory.getElem_readBlock s.cfg s.mem base count k hl

/-! ### The cycle (R63) -/

/-- What the cycle can do: stay faulted, take a fetch fault, take the decode fault, or run the decoded instruction. -/
theorem State.cycle_cases (s : State) :
    (∃ r, s.fault = some r ∧ s.cycle = .next { s with result := .faulted r }) ∨
    (s.fault = none ∧ ∃ k, s.fetchFault = some k ∧ s.cycle = .next (s.takeFault k none s.pc)) ∨
    (s.fault = none ∧ s.fetchFault = none ∧ decode s.cfg.admitGk s.fetchWord = .unrecognized ∧
      s.cycle = .next (s.takeFault .unrecognizedInstruction (some s.fetchWord) s.fetchWord)) ∨
    (s.fault = none ∧ s.fetchFault = none ∧
      ∃ i, decode s.cfg.admitGk s.fetchWord = .instr i ∧ s.cycle = exec i s.fetched) := by
  unfold State.cycle
  cases hf : s.fault with
  | some r => exact .inl ⟨r, rfl, rfl⟩
  | none =>
    cases hk : s.fetchFault with
    | some k => exact .inr (.inl ⟨rfl, k, rfl, rfl⟩)
    | none =>
      cases hd : decode s.cfg.admitGk s.fetchWord with
      | unrecognized => exact .inr (.inr (.inl ⟨rfl, rfl, rfl, rfl⟩))
      | instr i => exact .inr (.inr (.inr ⟨rfl, rfl, i, rfl, rfl⟩))

/-- The fetch checks pass exactly when the whole word is in memory and, under STRICT, `pc` is even (R62). -/
theorem State.fetchFault_eq_none (s : State) :
    s.fetchFault = none ↔
      s.pc.toNat + 1 ≤ Config.addrMax ∧ (s.cfg.fetchAlignment = .strict → s.pc.toNat % 2 = 0) := by
  unfold State.fetchFault
  split
  · next h =>
    simp only [reduceCtorEq, false_iff]
    rintro ⟨h1, -⟩
    omega
  · split
    · next h1 h2 => simp [h2.1, h2.2]
    · next h1 h2 =>
      simp only [true_iff]
      refine ⟨by omega, fun h => ?_⟩
      by_contra hodd
      exact h2 ⟨h, by omega⟩

end Sys2Proof.Machine
end

