-- ==== Sys2Proof/Laws/PerInstr.lean ====
section
/-! SUPPORT. Statements for all instructions, one lemma per constructor. Family RowMatch: the word an instruction is encoded to lies
on the instruction's row of the opcode table, and the row is gated exactly when R59 gates the instruction. -/

namespace Sys2Proof.Laws

open Sys2Proof

/-- AND works piece by piece on concatenated fields. -/
theorem append_and {m n : Nat} (a c : BitVec m) (b d : BitVec n) :
    (a ++ b) &&& (c ++ d) = (a &&& c) ++ (b &&& d) := by
  rw [BitVec.and_append]

theorem nibble_and_ones : ∀ a : Nibble, a &&& 0xF#4 = a := by decide

theorem byte_and_ones : ∀ a : Byte, a &&& 0xFF#8 = a := by decide

theorem regs_masked (op : Nibble) (x : Reg) : (op ++ nib x : Byte) &&& (0xF#4 ++ 0x0#4) = op ++ nib 0 :=
  (append_and op 0xF#4 (nib x) 0#4).trans
    (congrArg₂ (fun a b : Nibble => (a ++ b : Byte)) (nibble_and_ones op) (by simp; rfl))

/-- The mask F000 keeps the opcode of format NNN. -/
theorem encNNN_masked (op : Nibble) (nnn : Addr) : encNNN op nnn &&& 0xF000#16 = encNNN op 0#12 :=
  (append_and op 0xF#4 nnn 0#12).trans
    (congrArg₂ (fun (a : Nibble) (b : Addr) => (a ++ b : Word)) (nibble_and_ones op) (by simp))

/-- The mask F000 keeps the opcode of format XKK. -/
theorem encXKK_masked (op : Nibble) (x : Reg) (kk : Byte) : encXKK op x kk &&& 0xF000#16 = encXKK op 0 0#8 :=
  (append_and (op ++ nib x) (0xF#4 ++ 0x0#4) kk 0#8).trans
    (congrArg₂ (fun a b : Byte => (a ++ b : Word)) (regs_masked op x) (by simp))

/-- The mask F0FF keeps the opcode and the low byte of format X. -/
theorem encX_masked (op : Nibble) (x : Reg) (kk : Byte) : encXKK op x kk &&& 0xF0FF#16 = encXKK op 0 kk :=
  (append_and (op ++ nib x) (0xF#4 ++ 0x0#4) kk 0xFF#8).trans
    (congrArg₂ (fun a b : Byte => (a ++ b : Word)) (regs_masked op x) (byte_and_ones kk))

/-- The mask F00F keeps the opcode and the low nibble of format XY. -/
theorem encXY_masked (op : Nibble) (x y : Reg) (n : Nibble) : encXYN op x y n &&& 0xF00F#16 = encXYN op 0 0 n :=
  (append_and (op ++ nib x ++ nib y) (0xF#4 ++ 0x0#4 ++ 0x0#4) n 0xF#4).trans
    (congrArg₂ (fun (a : Addr) (b : Nibble) => (a ++ b : Word))
      ((append_and (op ++ nib x) (0xF#4 ++ 0x0#4) (nib y) 0x0#4).trans
        (congrArg₂ (fun (a : Byte) (b : Nibble) => (a ++ b : Addr)) (regs_masked op x) (by simp; rfl)))
      (nibble_and_ones n))

/-- The mask F000 keeps the opcode of format XYN. -/
theorem encXYN_masked (op : Nibble) (x y : Reg) (n : Nibble) : encXYN op x y n &&& 0xF000#16 = encXYN op 0 0 0x0#4 :=
  (append_and (op ++ nib x ++ nib y) (0xF#4 ++ 0x0#4 ++ 0x0#4) n 0x0#4).trans
    (congrArg₂ (fun (a : Addr) (b : Nibble) => (a ++ b : Word))
      ((append_and (op ++ nib x) (0xF#4 ++ 0x0#4) (nib y) 0x0#4).trans
        (congrArg₂ (fun (a : Byte) (b : Nibble) => (a ++ b : Addr)) (regs_masked op x) (by simp; rfl)))
      (by simp))

namespace RowMatch

/-- The encoding is on the row and the row has the instruction's gate. -/
def Statement (i : Instr) : Prop := i.row.matches (encode i) = true ∧ i.row.gk = i.isGk

theorem of_masked {i : Instr} (h : encode i &&& i.row.mask = i.row.pattern) (hg : i.row.gk = i.isGk) : Statement i :=
  ⟨decide_eq_true h, hg⟩

theorem nop : Statement (.nop) := of_masked (by decide) rfl

theorem cls : Statement (.cls) := of_masked (by decide) rfl

theorem ret : Statement (.ret) := of_masked (by decide) rfl

theorem jp (nnn : Addr) : Statement (.jp nnn) := of_masked ((encNNN_masked _ nnn).trans rfl) rfl

theorem call (nnn : Addr) : Statement (.call nnn) := of_masked ((encNNN_masked _ nnn).trans rfl) rfl

theorem seImm (x : Reg) (kk : Byte) : Statement (.seImm x kk) := of_masked ((encXKK_masked _ x kk).trans rfl) rfl

theorem sneImm (x : Reg) (kk : Byte) : Statement (.sneImm x kk) := of_masked ((encXKK_masked _ x kk).trans rfl) rfl

theorem seReg (x : Reg) (y : Reg) : Statement (.seReg x y) := of_masked ((encXY_masked _ x y _).trans rfl) rfl

theorem ldImm (x : Reg) (kk : Byte) : Statement (.ldImm x kk) := of_masked ((encXKK_masked _ x kk).trans rfl) rfl

theorem addImm (x : Reg) (kk : Byte) : Statement (.addImm x kk) := of_masked ((encXKK_masked _ x kk).trans rfl) rfl

theorem ldReg (x : Reg) (y : Reg) : Statement (.ldReg x y) := of_masked ((encXY_masked _ x y _).trans rfl) rfl

theorem orReg (x : Reg) (y : Reg) : Statement (.orReg x y) := of_masked ((encXY_masked _ x y _).trans rfl) rfl

theorem andReg (x : Reg) (y : Reg) : Statement (.andReg x y) := of_masked ((encXY_masked _ x y _).trans rfl) rfl

theorem xorReg (x : Reg) (y : Reg) : Statement (.xorReg x y) := of_masked ((encXY_masked _ x y _).trans rfl) rfl

theorem addReg (x : Reg) (y : Reg) : Statement (.addReg x y) := of_masked ((encXY_masked _ x y _).trans rfl) rfl

theorem sub (x : Reg) (y : Reg) : Statement (.sub x y) := of_masked ((encXY_masked _ x y _).trans rfl) rfl

theorem shr (x : Reg) (y : Reg) : Statement (.shr x y) := of_masked ((encXY_masked _ x y _).trans rfl) rfl

theorem subn (x : Reg) (y : Reg) : Statement (.subn x y) := of_masked ((encXY_masked _ x y _).trans rfl) rfl

theorem shl (x : Reg) (y : Reg) : Statement (.shl x y) := of_masked ((encXY_masked _ x y _).trans rfl) rfl

theorem sneReg (x : Reg) (y : Reg) : Statement (.sneReg x y) := of_masked ((encXY_masked _ x y _).trans rfl) rfl

theorem ldI (nnn : Addr) : Statement (.ldI nnn) := of_masked ((encNNN_masked _ nnn).trans rfl) rfl

theorem jpV0 (nnn : Addr) : Statement (.jpV0 nnn) := of_masked ((encNNN_masked _ nnn).trans rfl) rfl

theorem rnd (x : Reg) (kk : Byte) : Statement (.rnd x kk) := of_masked ((encXKK_masked _ x kk).trans rfl) rfl

theorem drw (x : Reg) (y : Reg) (n : Fin 16) : Statement (.drw x y n) := of_masked ((encXYN_masked _ x y _).trans rfl) rfl

theorem skp (x : Reg) : Statement (.skp x) := of_masked ((encX_masked _ x _).trans rfl) rfl

theorem sknp (x : Reg) : Statement (.sknp x) := of_masked ((encX_masked _ x _).trans rfl) rfl

theorem ldVxDt (x : Reg) : Statement (.ldVxDt x) := of_masked ((encX_masked _ x _).trans rfl) rfl

theorem ldVxK (x : Reg) : Statement (.ldVxK x) := of_masked ((encX_masked _ x _).trans rfl) rfl

theorem ldDtVx (x : Reg) : Statement (.ldDtVx x) := of_masked ((encX_masked _ x _).trans rfl) rfl

theorem ldStVx (x : Reg) : Statement (.ldStVx x) := of_masked ((encX_masked _ x _).trans rfl) rfl

theorem addI (x : Reg) : Statement (.addI x) := of_masked ((encX_masked _ x _).trans rfl) rfl

theorem ldF (x : Reg) : Statement (.ldF x) := of_masked ((encX_masked _ x _).trans rfl) rfl

theorem ldB (x : Reg) : Statement (.ldB x) := of_masked ((encX_masked _ x _).trans rfl) rfl

theorem ldMemVx (x : Reg) : Statement (.ldMemVx x) := of_masked ((encX_masked _ x _).trans rfl) rfl

theorem ldVxMem (x : Reg) : Statement (.ldVxMem x) := of_masked ((encX_masked _ x _).trans rfl) rfl

end RowMatch

end Sys2Proof.Laws
end

