-- ==== Sys2Proof/Tests/Slice0.lean ====
section
/-! SUPPORT. Tests on fixed values. Words are written out from the encodings of 30_encoding.md R54 and R56; expected results are
those of 95_test_vectors.md (T and E numbers) or of the examples in the rules. The last part shows, for every statement
with hypotheses, a state and operands that meet them. -/

namespace Sys2Proof.Tests

open Sys2Proof Sys2Proof.Machine Sys2Proof.Spec

/-! ### Small states -/

/-- The state after one step. -/
def after (s : State) : State :=
  match step s with
  | .next t => t
  | .fault _ => s
  | .refused _ => s

/-- The reset state with one word at 0x200. -/
def word (w : Word) : State := State.reset.placeWord w

/-- The same under other parameters. -/
def wordIn (cfg : Config) (w : Word) : State :=
  (State.initial cfg { num := 1, den := 500 } [StepInput.quiet]).placeWord w

/-- Some registers set. -/
def withV (l : List (Reg × Byte)) (s : State) : State := l.foldl (fun t p => t.writeV p.1 p.2) s

/-- The next step's keys and draw. -/
def withInput (pressed : List Nat) (rnd : Byte) (s : State) : State :=
  { s with schedule := [{ ticks := 0, keys := Vector.ofFn (fun k : Fin 16 => pressed.contains k.val), rnd := rnd }] }

/-- One row of a display, as its columns that are on. -/
def rowOn (d : Display) (r : Fin 32) : List Nat :=
  ((List.finRange 64).filter (fun c => Display.pixel d r c)).map Fin.val

/-- The part of a fault record the tests compare: kind, address, word, detail. -/
def faultOf (s : State) : Option (FaultKind × Word × Option Word × Word) :=
  s.fault.map (fun r => (r.kind, r.addr, r.word, r.detail))

/-- The state after a load, if it succeeds. -/
def loaded (s : State) (bytes : List Byte) : Option State :=
  match s.load (some bytes) with
  | .ok t => some t
  | .error _ => none

/-- Why a load fails, if it does. -/
def loadFailure (s : State) (bytes : Option (List Byte)) : Option LoadFailure :=
  match s.load bytes with
  | .ok _ => none
  | .error e => some e

/-! ### Well-formedness: what the gate refuses (R59) -/

theorem test_gate_refuses_each_gated_instruction :
    [Instr.seReg 1 2, .ldReg 1 2, .subn 1 2, .sneReg 1 2, .jpV0 0x300#12, .rnd 1 0x0F#8, .ldVxK 3].all
      (fun i => !i.wellFormed false && i.wellFormed true) = true := by decide

theorem test_gate_admits_the_others :
    [Instr.nop, .cls, .ret, .jp 0, .call 0, .seImm 0 0, .sneImm 0 0, .ldImm 0 0, .addImm 0 0, .orReg 0 0, .andReg 0 0,
      .xorReg 0 0, .addReg 0 0, .sub 0 0, .shr 0 0, .shl 0 0, .ldI 0, .drw 0 0 0, .skp 0, .sknp 0, .ldVxDt 0, .ldDtVx 0,
      .ldStVx 0, .addI 0, .ldF 0, .ldB 0, .ldMemVx 0, .ldVxMem 0].all (fun i => i.wellFormed false) = true := by decide

/-! ### Decoding: a word of every constructor, from the encoding column of the opcode table -/

theorem test_decode_zero_family :
    decode true 0b0000000000000000#16 = .instr .nop ∧ decode true 0b0000000011100000#16 = .instr .cls ∧
    decode true 0b0000000011101110#16 = .instr .ret := by decide

theorem test_decode_jumps :
    decode true 0b0001101010111100#16 = .instr (.jp 0xABC#12) ∧
    decode true 0b0010001000010000#16 = .instr (.call 0x210#12) ∧
    decode true 0b1011001100000000#16 = .instr (.jpV0 0x300#12) := by decide

theorem test_decode_skips :
    decode true 0b0011001100001010#16 = .instr (.seImm 3 0x0A#8) ∧
    decode true 0b0100001100001010#16 = .instr (.sneImm 3 0x0A#8) ∧
    decode true 0b0101000100100000#16 = .instr (.seReg 1 2) ∧
    decode true 0b1001000100100000#16 = .instr (.sneReg 1 2) := by decide

theorem test_decode_register_immediate :
    decode true 0b0110101001000010#16 = .instr (.ldImm 0xA 0x42#8) ∧
    decode true 0b0111001111111111#16 = .instr (.addImm 3 0xFF#8) ∧
    decode true 0b1100000100001111#16 = .instr (.rnd 1 0x0F#8) := by decide

theorem test_decode_alu :
    decode true 0b1000000100100000#16 = .instr (.ldReg 1 2) ∧ decode true 0b1000000100100001#16 = .instr (.orReg 1 2) ∧
    decode true 0b1000000100100010#16 = .instr (.andReg 1 2) ∧ decode true 0b1000000100100011#16 = .instr (.xorReg 1 2) ∧
    decode true 0b1000000100100100#16 = .instr (.addReg 1 2) ∧ decode true 0b1000000100100101#16 = .instr (.sub 1 2) ∧
    decode true 0b1000000100100110#16 = .instr (.shr 1 2) ∧ decode true 0b1000000100100111#16 = .instr (.subn 1 2) ∧
    decode true 0b1000000100101110#16 = .instr (.shl 1 2) := by decide

theorem test_decode_index_and_draw :
    decode true 0b1010001100000000#16 = .instr (.ldI 0x300#12) ∧
    decode true 0b1101000000010101#16 = .instr (.drw 0 1 5) ∧
    decode true 0b1111001000011110#16 = .instr (.addI 2) ∧ decode true 0b1111001100101001#16 = .instr (.ldF 3) ∧
    decode true 0b1111000000110011#16 = .instr (.ldB 0) ∧ decode true 0b1111001001010101#16 = .instr (.ldMemVx 2) ∧
    decode true 0b1111001001100101#16 = .instr (.ldVxMem 2) := by decide

theorem test_decode_keypad_and_timers :
    decode true 0b1110010110011110#16 = .instr (.skp 5) ∧ decode true 0b1110010110100001#16 = .instr (.sknp 5) ∧
    decode true 0b1111000100000111#16 = .instr (.ldVxDt 1) ∧ decode true 0b1111001100001010#16 = .instr (.ldVxK 3) ∧
    decode true 0b1111000000010101#16 = .instr (.ldDtVx 0) ∧
    decode true 0b1111001000011000#16 = .instr (.ldStVx 2) := by decide

/-- Reserved neighbours of encodings are not decoded (R57, T7 to T12). -/
theorem test_reserved_words_are_unrecognized :
    [0x0001#16, 0x00DF#16, 0x00E1#16, 0x00EF#16, 0x0123#16, 0x0FFF#16, 0x5001#16, 0x5121#16, 0x500F#16, 0x8008#16,
      0x8128#16, 0x800D#16, 0x800F#16, 0x9001#16, 0x900F#16, 0xE000#16, 0xE09F#16, 0xE0A0#16, 0xEFFF#16, 0xF000#16,
      0xF0FF#16].all (fun w => decide (decode true w = .unrecognized)) = true := by decide

/-- With the gate shut the seven rows are unrecognized too (R57, R59). -/
theorem test_gated_words_are_unrecognized_when_shut :
    [0x5000#16, 0x8120#16, 0x8127#16, 0x9FF0#16, 0xB000#16, 0xBFFF#16, 0xC000#16, 0xCFFF#16, 0xF00A#16].all
      (fun w => decide (decode false w = .unrecognized ∧ decode true w ≠ .unrecognized)) = true := by decide

/-! ### Fetch and faults -/

/-- T3, T4: the bounds check comes before the alignment check. -/
theorem test_fetch_out_of_bounds :
    faultOf (after (State.reset.setPc 0x1000)) = some (.fetchOutOfBounds, 0x1000, none, 0x1000) ∧
    faultOf (after (State.reset.setPc 0xFFF)) = some (.fetchOutOfBounds, 0xFFF, none, 0xFFF) ∧
    (after (State.reset.setPc 0xFFF)).pc = 0xFFF := by decide

/-- T5, T6. -/
theorem test_fetch_alignment :
    faultOf (after (State.reset.setPc 0x301)) = some (.misalignedFetch, 0x301, none, 0x301) ∧
    let t := after (State.placeWord ((wordIn { Config.default with fetchAlignment := .relaxed } 0).setPc 0x301) 0x6A42)
    t.readV 0xA = 0x42 ∧ t.pc = 0x303 ∧ t.fault = none := by decide

/-- T7, T13: an unrecognized word, and a jump into the font. -/
theorem test_unrecognized_word_faults :
    faultOf (after (word 0x0123)) = some (.unrecognizedInstruction, 0x200, some 0x0123, 0x0123) ∧
    (after (word 0x0123)).pc = 0x200 ∧
    faultOf (after (State.reset.setPc 0x000)) = some (.unrecognizedInstruction, 0x000, some 0xF090, 0xF090) := by decide

/-- T12: a gated word with the gate shut. -/
theorem test_gated_word_faults :
    faultOf (after (wordIn { Config.default with admitGk := false } 0x8120)) =
      some (.unrecognizedInstruction, 0x200, some 0x8120, 0x8120) := by decide

/-- T14: a faulted core returns the same record and does not tick. -/
theorem test_faulted_core_absorbs :
    let s := { (after (word 0x0123)) with dt := 5, schedule := [{ StepInput.quiet with ticks := 2 }] }
    (after s).fault = s.fault ∧ (after s).dt = 5 ∧ (after s).pc = 0x200 ∧ s.tickTimers = s := by decide

/-! ### Control transfer -/

/-- T1. -/
theorem test_nop : (after (word 0x0000)).pc = 0x202 ∧ (after (word 0x0000)).result = .noUpdate := by decide

/-- T15, T16. -/
theorem test_jp : (after (word 0x1ABC)).pc = 0xABC ∧ (after (word 0x1200)).pc = 0x200 := by decide

/-- T17. -/
theorem test_call :
    let t := after (word 0x2210)
    t.sp = 1 ∧ t.stack[1] = 0x202 ∧ t.pc = 0x210 := by decide

/-- T20. -/
theorem test_call_overflow :
    let t := after { word 0x2300 with sp := 15 }
    faultOf t = some (.stackOverflow, 0x200, some 0x2300, 15) ∧ t.pc = 0x200 ∧ t.sp = 15 ∧ t.stack[15] = 0 := by decide

/-- T18. -/
theorem test_ret :
    let t := after { word 0x00EE with sp := 1, stack := (Vector.replicate 16 0).set 1 0x206 }
    t.pc = 0x206 ∧ t.sp = 0 ∧ t.stack[1] = 0x206 := by decide

/-- T19, E10. -/
theorem test_ret_underflow :
    let t := after (word 0x00EE)
    faultOf t = some (.stackUnderflow, 0x200, some 0x00EE, 0) ∧ t.pc = 0x200 ∧ t.sp = 0 := by decide

/-- T21, T22. -/
theorem test_se_imm :
    (after (withV [(3, 0x0A)] (word 0x330A))).pc = 0x204 ∧ (after (withV [(3, 0x0A)] (word 0x330B))).pc = 0x202 := by decide

/-- T23, T24. -/
theorem test_sne_imm :
    (after (withV [(3, 0x0A)] (word 0x430A))).pc = 0x202 ∧ (after (withV [(3, 0x0A)] (word 0x430B))).pc = 0x204 := by decide

/-- T25, T26. -/
theorem test_se_reg :
    (after (withV [(1, 7), (2, 7)] (word 0x5120))).pc = 0x204 ∧ (after (word 0x5110)).pc = 0x204 ∧
    (after (withV [(1, 7)] (word 0x5120))).pc = 0x202 := by decide

/-- T27, T28. -/
theorem test_sne_reg :
    (after (withV [(1, 7), (2, 8)] (word 0x9120))).pc = 0x204 ∧ (after (word 0x9110)).pc = 0x202 := by decide

/-- T29, T30, and V0 carrying the sum past 0xFFF (R78). -/
theorem test_jp_v0 :
    (after (withV [(0, 0x04)] (word 0xB300))).pc = 0x304 ∧ (after (withV [(0, 0xFF)] (word 0xBF00))).pc = 0xFFF ∧
    (after (withV [(0, 0xFF)] (word 0xBFFF))).pc = 0x10FE := by decide

/-! ### Register loads and the ALU -/

/-- T32, T33. -/
theorem test_ld_imm : (after (word 0x6A42)).readV 0xA = 0x42 ∧ (after (word 0x6F42)).readV 0xF = 0x42 := by decide

/-- T34, E9. -/
theorem test_add_imm :
    (let t := after (withV [(3, 2), (15, 9)] (word 0x73FF)); t.readV 3 = 1 ∧ t.readV 15 = 9) ∧
    (after (withV [(3, 0x0A)] (word 0x7305))).readV 3 = 0x0F := by decide

/-- T35. -/
theorem test_ld_reg : (after (withV [(2, 0x42)] (word 0x8120))).readV 1 = 0x42 := by decide

/-- T36. -/
theorem test_or :
    let t := after (withV [(1, 0xF0), (2, 0x0F), (15, 7)] (word 0x8121))
    t.readV 1 = 0xFF ∧ t.readV 15 = 7 := by decide

/-- T37. -/
theorem test_and :
    let t := after (withV [(1, 0xF0), (2, 0x3C), (15, 7)] (word 0x8122))
    t.readV 1 = 0x30 ∧ t.readV 15 = 7 := by decide

/-- T38. -/
theorem test_xor :
    let t := after (withV [(1, 0xF0), (2, 0xFF), (15, 7)] (word 0x8123))
    t.readV 1 = 0x0F ∧ t.readV 15 = 7 := by decide

/-- T39; and with VF the destination the reset comes after the result (R85). -/
theorem test_logic_vf_reset :
    let cfg := { Config.default with logicVfReset := true }
    (let t := after (withV [(1, 0xF0), (2, 0xFF), (15, 7)] (wordIn cfg 0x8123)); t.readV 1 = 0x0F ∧ t.readV 15 = 0) ∧
    (after (withV [(2, 0xFF)] (wordIn cfg 0x8F23))).readV 15 = 0 := by decide

/-- T40, T42. -/
theorem test_add_reg :
    (let t := after (withV [(1, 0xFF), (2, 1)] (word 0x8124)); t.readV 1 = 0 ∧ t.readV 15 = 1) ∧
    (let t := after (withV [(1, 0x80), (2, 0x7F), (15, 1)] (word 0x8124)); t.readV 1 = 0xFF ∧ t.readV 15 = 0) := by decide

/-- T43, T44, T45. -/
theorem test_add_reg_overlaps :
    (let t := after (withV [(1, 0x81)] (word 0x8114)); t.readV 1 = 2 ∧ t.readV 15 = 1) ∧
    (after (withV [(15, 0x10), (1, 0x20)] (word 0x8F14))).readV 15 = 0 ∧
    (let t := after (withV [(15, 1), (1, 0xFF)] (word 0x81F4)); t.readV 1 = 0 ∧ t.readV 15 = 1) := by decide

/-- T46, T47. -/
theorem test_sub :
    (let t := after (withV [(1, 7), (2, 7)] (word 0x8125)); t.readV 1 = 0 ∧ t.readV 15 = 1) ∧
    (let t := after (withV [(2, 1)] (word 0x8125)); t.readV 1 = 0xFF ∧ t.readV 15 = 0) := by decide

/-- T48, T49. -/
theorem test_sub_direction_and_vf :
    (after (withV [(1, 0x10), (2, 0x20)] (word 0x8125))).readV 1 = 0xF0 ∧
    (after (withV [(15, 5), (1, 3)] (word 0x8F15))).readV 15 = 1 := by decide

/-- T50, T51. -/
theorem test_subn :
    (let t := after (withV [(1, 1)] (word 0x8127)); t.readV 1 = 0xFF ∧ t.readV 15 = 0) ∧
    (let t := after (withV [(1, 9), (2, 9)] (word 0x8127)); t.readV 1 = 0 ∧ t.readV 15 = 1) := by decide

/-- T53, T54. -/
theorem test_shr :
    (let t := after (withV [(1, 5)] (word 0x8106)); t.readV 1 = 2 ∧ t.readV 15 = 1) ∧
    (after (withV [(15, 3)] (word 0x8F06))).readV 15 = 1 := by decide

/-- T55. -/
theorem test_shr_source_vy :
    let t := after (withV [(2, 3)] (wordIn { Config.default with shiftSource := .vy } 0x8126))
    t.readV 1 = 1 ∧ t.readV 15 = 1 ∧ t.readV 2 = 3 := by decide

/-- T56, T57, T58. -/
theorem test_shl :
    (let t := after (withV [(1, 0x80)] (word 0x810E)); t.readV 1 = 0 ∧ t.readV 15 = 1) ∧
    (let t := after (withV [(1, 0x7F)] (word 0x810E)); t.readV 1 = 0xFE ∧ t.readV 15 = 0) ∧
    (after (withV [(15, 0x40)] (word 0x8F0E))).readV 15 = 0 := by decide

/-- T59, T60. -/
theorem test_rnd :
    (after (withInput [] 0xA5 (word 0xC10F))).readV 1 = 0x05 ∧
    (after (withInput [] 0xA5 (withV [(1, 9)] (word 0xC100)))).readV 1 = 0 := by decide

/-! ### Index register and memory -/

/-- T61. -/
theorem test_ld_i : (after (word 0xA300)).i = 0x300 := by decide

/-- T63, T64, T65. -/
theorem test_add_i :
    (let t := after (withV [(0, 1)] ((word 0xF01E).setI 0xFFF)); t.i = 0x1000 ∧ t.readV 15 = 0) ∧
    (after (withV [(0, 1)] ((word 0xF01E).setI 0xFFFF))).i = 0 ∧
    (let t := after (withV [(15, 0x10)] ((word 0xFF1E).setI 0x100)); t.i = 0x110 ∧ t.readV 15 = 0x10) := by decide

/-- T66, T67, T68. -/
theorem test_ld_f :
    (after (withV [(3, 0x0A)] (word 0xF329))).i = 0x032 ∧ (after (withV [(3, 0x0F)] (word 0xF329))).i = 0x04B ∧
    (after (withV [(3, 0x1A)] (word 0xF329))).i = 0x032 := by decide

/-- T69, T71. -/
theorem test_ld_b :
    (after (withV [(0, 0xFE)] ((word 0xF033).setI 0x300))).readBlock 0x300 3 = [2, 5, 4] ∧
    (after (withV [(0, 0xFF)] ((word 0xF033).setI 0xFFD))).readBlock 0xFFD 3 = [2, 5, 5] := by decide

/-- T72. -/
theorem test_ld_b_out_of_bounds :
    let t := after (withV [(0, 0xFF)] ((word 0xF033).setI 0xFFE))
    faultOf t = some (.dataOutOfBounds, 0x200, some 0xF033, 0x1000) ∧ t.readBlock 0xFFE 2 = [0, 0] ∧ t.pc = 0x200 := by decide

/-- T73, T74. -/
theorem test_ld_mem_vx :
    (let t := after (withV [(0, 1), (1, 2), (2, 3), (3, 4)] ((word 0xF255).setI 0x400))
     t.readBlock 0x3FF 5 = [0, 1, 2, 3, 0] ∧ t.i = 0x400) ∧
    (let t := after (withV [(0, 1)] ((wordIn { Config.default with loadStoreIIncrement := true } 0xF255).setI 0x400))
     t.readByte 0x400 = 1 ∧ t.i = 0x403) := by decide

/-- T75's range with a value stored, T76. -/
theorem test_ld_mem_vx_bounds :
    (let t := after (withV [(15, 7)] ((word 0xFF55).setI 0xFF0)); t.readByte 0xFFF = 7 ∧ t.fault = none) ∧
    (let t := after (withV [(0, 7)] ((word 0xFF55).setI 0xFF1))
     faultOf t = some (.dataOutOfBounds, 0x200, some 0xFF55, 0x1000) ∧ t.readByte 0xFF1 = 0) := by decide

/-- T77, T78. -/
theorem test_ld_vx_mem :
    (let t := after (withV [(3, 9)] (((word 0xF265).setI 0x300).writeBlock 0x300 [2, 5, 4]))
     t.readV 0 = 2 ∧ t.readV 1 = 5 ∧ t.readV 2 = 4 ∧ t.readV 3 = 9) ∧
    (after (((word 0xFF65).setI 0x300).writeBlock 0x30F [0x77])).readV 15 = 0x77 := by decide

/-- T79. -/
theorem test_ld_vx_mem_out_of_bounds :
    faultOf (after ((word 0xF065).setI 0x1000)) = some (.dataOutOfBounds, 0x200, some 0xF065, 0x1000) := by decide

/-- R40: glyphs A and 7 where R95 says they are, and zero above the font and without it. -/
theorem test_font :
    State.reset.readBlock 0x032 5 = [0xF0, 0x90, 0xF0, 0x90, 0x90] ∧
    State.reset.readBlock 0x023 5 = [0xF0, 0x10, 0x20, 0x40, 0x40] ∧ State.reset.readByte 0x04F = 0x80 ∧
    State.reset.readByte 0x050 = 0 ∧
    (State.initial { Config.default with fontLoaded := false } { num := 1, den := 500 } []).readByte 0x032 = 0 := by decide

/-- The canonical form: a byte written back to its reset value leaves the list. -/
theorem test_memory_canonical :
    ((State.reset.writeBlock 0x032 [1, 2]).writeBlock 0x032 [0xF0, 0x90]).mem = [] ∧
    (State.reset.writeBlock 0x300 [1, 2, 0]).mem = [(0x300, 1), (0x301, 2)] := by decide

/-! ### Display -/

/-- T80. -/
theorem test_cls :
    let s := { word 0x00E0 with display := Display.setPixel Display.clear 3 4 true }
    let t := after (withV [(15, 5)] s)
    rowOn t.display 3 = [] ∧ t.result = .update Display.clear ∧ t.readV 15 = 5 := by decide

/-- T82, T83: the right edge clipped and wrapped. -/
theorem test_drw_edges :
    (let t := after (withV [(0, 62)] (((word 0xD011).setI 0x300).writeBlock 0x300 [0xFF]))
     rowOn t.display 0 = [62, 63] ∧ t.readV 15 = 0 ∧ t.result = .update t.display) ∧
    (let t := after (withV [(0, 62)]
        (((wordIn { Config.default with spriteEdge := .wrap } 0xD011).setI 0x300).writeBlock 0x300 [0xFF]))
     rowOn t.display 0 = [0, 1, 2, 3, 4, 5, 62, 63] ∧ t.readV 15 = 0) := by decide

/-- T87, T89: the bottom edge, and a collision. -/
theorem test_drw_collision :
    (let t := after (withV [(1, 31)] (((word 0xD012).setI 0x300).writeBlock 0x300 [0x80, 0x80]))
     rowOn t.display 31 = [0] ∧ rowOn t.display 0 = []) ∧
    (let t := after { (((word 0xD011).setI 0x301).writeBlock 0x301 [0xC0]) with
        display := Display.setPixel Display.clear 0 0 true }
     rowOn t.display 0 = [1] ∧ t.readV 15 = 1) := by decide

/-- T85, T91, T92: start position, VF as an operand, and no row. -/
theorem test_drw_operands :
    (let t := after (withV [(0, 127)] (((word 0xD011).setI 0x300).writeBlock 0x300 [0xC0])); rowOn t.display 0 = [63]) ∧
    (let t := after (withV [(15, 5)] (((word 0xDF11).setI 0x300).writeBlock 0x300 [0x80]))
     rowOn t.display 0 = [5] ∧ t.readV 15 = 0) ∧
    (after (withV [(15, 1)] (word 0xD000))).readV 15 = 0 := by decide

/-- T93, T94. -/
theorem test_drw_bounds :
    faultOf (after ((word 0xD002).setI 0xFFF)) = some (.dataOutOfBounds, 0x200, some 0xD002, 0x1000) ∧
    (after ((word 0xD001).setI 0xFFF)).fault = none := by decide

/-! ### Keypad and timers -/

/-- T95, T96. -/
theorem test_skp :
    (after (withInput [0xC] 0 (withV [(5, 0x0C)] (word 0xE59E)))).pc = 0x204 ∧
    (after (withV [(5, 0x0C)] (word 0xE59E))).pc = 0x202 := by decide

/-- T98, T99. -/
theorem test_key_out_of_range :
    faultOf (after (withV [(5, 0x10)] (word 0xE59E))) = some (.keyOutOfRange, 0x200, some 0xE59E, 0x10) ∧
    (after (withInput [0xC] 0 (withV [(5, 0x1C)] (wordIn { Config.default with keyIndexPolicy := .mask } 0xE59E)))).pc =
      0x204 := by decide

/-- T97; and a pressed key (R108). -/
theorem test_sknp :
    (after (withV [(5, 0x0C)] (word 0xE5A1))).pc = 0x204 ∧
    (after (withInput [0xC] 0 (withV [(5, 0x0C)] (word 0xE5A1)))).pc = 0x202 := by decide

/-- T100, T101. -/
theorem test_ld_vx_k :
    (after (word 0xF30A)).pc = 0x200 ∧
    (let t := after (withInput [3, 9] 0 (word 0xF30A)); t.readV 3 = 3 ∧ t.pc = 0x202) := by decide

/-- T102. -/
theorem test_ld_vx_dt : (after ((word 0xF107).setDt 0x3C)).readV 1 = 0x3C := by decide

/-- T103. -/
theorem test_ld_dt_vx : (after (withV [(0, 3)] (word 0xF015))).dt = 3 := by decide

/-- T104. -/
theorem test_ld_st_vx :
    let t := after (withV [(2, 1)] (word 0xF218))
    t.st = 1 ∧ t.buzzerActive = true := by decide

/-- T105, T106; and the ticks of a step's input come before it (log entry 2). -/
theorem test_ticks :
    (let t := ((State.reset.setDt 0).setSt 1).tickTimers; t.dt = 0 ∧ t.st = 0 ∧ t.buzzerActive = false) ∧
    (State.reset.setDt 255).tickTimers.dt = 254 ∧
    (after { (word 0xF107).setDt 9 with schedule := [{ StepInput.quiet with ticks := 2 }] }).readV 1 = 7 := by decide

/-! ### Construction and load -/

/-- T107, T108; `FONT_BASE` at and past its bound (R9). -/
theorem test_new :
    (newCore Config.default 500 []).map State.speed = some { num := 1, den := 500 } ∧ newCore Config.default 0 [] = none ∧
    (newCore { Config.default with fontBase := 0x1B0 } 1 []).isSome = true ∧
    newCore { Config.default with fontBase := 0x1B1 } 1 [] = none := by decide

/-- The bytes of E8 loaded at 0x200, and a second load refused (R131). -/
theorem test_load :
    let t := (loaded State.reset [0x00, 0xE0, 0x12, 0x00]).getD State.reset
    t.readBlock 0x200 4 = [0x00, 0xE0, 0x12, 0x00] ∧ (after t).pc = 0x202 ∧ loadFailure t (some []) = some .notAdmitted ∧
    loadFailure State.reset none = some .io := by decide

/-- T110, T111. -/
theorem test_load_refused :
    loadFailure State.reset (some (List.replicate 3585 0)) = some .tooLarge ∧
    loadFailure (after State.reset) (some []) = some .notAdmitted := by
  refine ⟨?_, by decide⟩
  rw [loadFailure, State.load, List.length_replicate]
  decide

/-- The host's placing of a word: the very next step runs it (log entry 6). -/
theorem test_with_fetch_word :
    (after (State.reset.withFetchWord 16 0x6A42)).readV 0xA = 0x42 ∧
    decodeTableWord 16 0x6A42 = some (.ldImm 0xA 0x42) ∧ decodeTableWord 16 0x0123 = none := by decide

/-! ### Witnesses: a state and operands that meet each statement's hypotheses -/

theorem witness_DecodeOfEncode : (Instr.drw 15 15 15).wellFormed false = true ∧ (Instr.ldVxK 15).wellFormed true = true := by
  decide

theorem witness_EncodeOfDecode : decode true 0x8FF7 = .instr (.subn 15 15) ∧ decode false 0xDFFF = .instr (.drw 15 15 15) := by
  decide

/-- Every row of R57's list at the ends of its range (the words of the two tests of unrecognized words), and a state
whose step executes one. -/
theorem witness_UnrecognizedWordsExactly :
    Fetches (word 0x0FFF).beginStep 0x0FFF ∧ decode (word 0x0FFF).cfg.admitGk 0x0FFF = .unrecognized := by
  unfold Fetches; decide

theorem witness_GkGateRemovesSevenRows : decode true 0xFF0A = .instr (.ldVxK 15) ∧ decode true 0xFF0B = .unrecognized := by
  decide

theorem witness_DecoderFollowsTheTable :
    (Instr.row (.sub 0 0)) ∈ opcodeTable ∧ (Instr.row (.sub 0 0)).matches 0x8FF5 = true ∧
    (true || !(Instr.row (.sub 0 0)).gk) = true ∧ decode true 0x8FF5 = .instr (.sub 15 15) := by decide

/-- The last fetchable address, and an odd address under RELAXED. -/
theorem witness_StepRunsDecodedInstruction :
    Fetches (State.reset.setPc 0xFFE).beginStep 0x0000 ∧ decode true 0x0000 = .instr .nop ∧
    Fetches ((wordIn { Config.default with fetchAlignment := .relaxed } 0).setPc 0xFFD).beginStep 0x0000 := by
  unfold Fetches; decide

theorem witness_HostInputBeforeStep :
    State.reset.schedule = StepInput.quiet :: [] ∧ { State.reset with schedule := [] }.schedule = [] ∧
    State.reset.fault = none ∧ (after (word 0x0123)).fault ≠ none := by decide

/-- Both sides of each bound: 0xFFE and 0xFFF, even and odd, STRICT and RELAXED. -/
theorem witness_FetchChecksInOrder :
    State.reset.fault = none ∧ 0xFFF < (State.reset.setPc 0xFFF).pc.toNat + 1 ∧
    (State.reset.setPc 0xFFE).pc.toNat + 1 ≤ 0xFFF ∧ (State.reset.setPc 0xFFD).pc.toNat + 1 ≤ 0xFFF ∧
    State.reset.cfg.fetchAlignment = .strict ∧ (State.reset.setPc 0xFFD).pc.toNat % 2 = 1 ∧
    (∃ t r, step (word 0x0123) = .next t ∧ t.fault = some r) := by
  refine ⟨by decide, by decide, by decide, by decide, by decide, by decide, _, _, rfl, rfl⟩

theorem witness_FaultedCoreAbsorbs : ∃ r, (after (word 0x0123)).fault = some r := ⟨_, rfl⟩

/-- A faulting step of each kind, at the first value that faults. -/
theorem witness_FaultRecordsFollowTheTable :
    ((after (State.reset.setPc 0xFFF)).fault.map FaultRecord.code = some 4) ∧
    ((after (State.reset.setPc 0xFFD)).fault.map FaultRecord.code = some 5) ∧
    ((after (word 0x8008)).fault.map FaultRecord.code = some 1) ∧
    ((after { word 0x2FFF with sp := 15 }).fault.map FaultRecord.code = some 2) ∧
    ((after (word 0x00EE)).fault.map FaultRecord.code = some 3) ∧
    ((after ((word 0xFF65).setI 0xFF1)).fault.map FaultRecord.code = some 6) ∧
    ((after (withV [(15, 0x10)] (word 0xEFA1))).fault.map FaultRecord.code = some 7) := by decide

theorem witness_FaultsArePrecise :
    (word 0x00EE).fault = none ∧ ∃ t, step (word 0x00EE) = .next t ∧ t.fault ≠ none := by
  refine ⟨by decide, _, rfl, by decide⟩

theorem witness_StepResultIsSnapshotNoUpdateOrFault :
    (∃ t, step (word 0x00E0) = .next t ∧ t.fault = none) ∧ (∃ t, step (word 0x6FFF) = .next t ∧ t.fault = none) ∧
    ∃ t, step (word 0x00EE) = .next t ∧ t.fault ≠ none := by
  refine ⟨⟨_, rfl, by decide⟩, ⟨_, rfl, by decide⟩, _, rfl, by decide⟩

theorem witness_NopOnlyAdvancesPc :
    Fetches (State.reset.setPc 0xFFE).beginStep 0x0000 ∧ (State.reset.setPc 0xFFE).pc = 0xFFE := by unfold Fetches; decide

theorem witness_SkipsOnRegisters : (1 : Nibble) ≠ 0 ∧ (15 : Nibble) ≠ 0 := by decide

/-- The ends of both ranges of `sp`. -/
theorem witness_ReturnPopsOrUnderflows :
    State.reset.sp = 0 ∧ { State.reset with sp := 1 }.sp ≠ 0 ∧ { State.reset with sp := 15 }.sp ≠ 0 := by decide

theorem witness_CallPushesOrOverflows :
    State.reset.sp ≠ 15 ∧ { State.reset with sp := 14 }.sp ≠ 15 ∧ { State.reset with sp := 15 }.sp = 15 := by decide

/-- CALL 0x204 at 0x200 with 14 addresses held, RET at 0x204. -/
theorem witness_CallThenReturnComesBack :
    let s := { (word 0x2204).writeBlock 0x204 [0x00, 0xEE] with sp := 14, schedule := [StepInput.quiet, StepInput.quiet] }
    Fetches s.beginStep (0b0010#4 ++ 0x204#12) ∧ s.sp ≠ 15 ∧ step s = .next (after s) ∧
    Fetches (after s).beginStep 0x00EE := by
  refine ⟨by unfold Fetches; decide, by decide, rfl, by unfold Fetches; decide⟩

/-- VF as `x` and as another register, with the parameter both ways. -/
theorem witness_LogicInstructions :
    State.reset.cfg.logicVfReset = false ∧ (14 : Reg) ≠ 15 ∧
    (wordIn { Config.default with logicVfReset := true } 0).cfg.logicVfReset = true := by decide

theorem witness_ShiftsByOne :
    (State.reset.cfg.shiftSource = .vx ∧ 0x81 = ((withV [(1, 0x81)] State.reset).readV 1).toNat) ∧
    (wordIn { Config.default with shiftSource := .vy } 0).cfg.shiftSource = .vy := by decide

theorem witness_VfWrittenOnlyAsFlagOrDestination :
    State.reset.fault = none ∧
    (∃ t, exec (.addReg 15 1) (withV [(15, 9)] State.reset) = .next t ∧ t.fault = none ∧ t.readV 15 ≠ 9) ∧
    (∃ t, exec (.ldImm 15 9) State.reset = .next t ∧ t.fault = none ∧ t.readV 15 ≠ 0) := by
  refine ⟨by decide, ⟨_, rfl, by decide, by decide⟩, _, rfl, by decide, by decide⟩

theorem witness_IndexInstructions : State.reset.cfg.valid = true := by decide

/-- The last I that fits and the first that does not. -/
theorem witness_DecimalStore :
    Memory.wf State.reset.cfg State.reset.mem = true ∧ (State.reset.setI 0xFFD).i.toNat + 2 ≤ 0xFFF ∧
    0xFFF < (State.reset.setI 0xFFE).i.toNat + 2 := by decide

theorem witness_BlockStore :
    Memory.wf (word 0xFF55).cfg (word 0xFF55).mem = true ∧
    (State.reset.setI 0xFF0).i.toNat + (15 : Reg).val ≤ 0xFFF ∧ 0xFFF < (State.reset.setI 0xFF1).i.toNat + (15 : Reg).val ∧
    (State.reset.setI 0xFFF).i.toNat + (0 : Reg).val ≤ 0xFFF ∧ 0xFFF < (State.reset.setI 0x1000).i.toNat + (0 : Reg).val := by
  decide

theorem witness_BlockLoad :
    (State.reset.setI 0xFF0).i.toNat + (15 : Reg).val ≤ 0xFFF ∧
    0xFFF < (State.reset.setI 0xFFFF).i.toNat + (15 : Reg).val := by decide

theorem witness_BlockStoreThenLoadRestores :
    Memory.wf State.reset.cfg State.reset.mem = true ∧ (State.reset.setI 0xFF0).i.toNat + (15 : Reg).val ≤ 0xFFF ∧
    ∃ t, exec (.ldMemVx 15) (State.reset.setI 0xFF0) = .next t := ⟨by decide, by decide, _, rfl⟩

/-- A store that ends over the word at the next `pc`. -/
theorem witness_NextFetchSeesTheStore :
    let s := State.reset.setI 0x1F2
    Memory.wf s.cfg s.mem = true ∧ s.i.toNat + (15 : Reg).val ≤ 0xFFF ∧ s.pc.toNat = s.i.toNat + (14 : Reg).val ∧
    (14 : Reg).val + 1 ≤ (15 : Reg).val ∧ (∃ t, exec (.ldMemVx 15) s = .next t) ∧
    (∃ t, exec (.ldB 0) (State.reset.setI 0x200) = .next t) ∧ (State.reset.setI 0x200).pc = (State.reset.setI 0x200).i ∧
    (State.reset.setI 0x200).i.toNat + 2 ≤ 0xFFF := by
  refine ⟨by decide, by decide, by decide, by decide, ⟨_, rfl⟩, ⟨_, rfl⟩, by decide, by decide⟩

/-- No row at the largest I, one row at the last address, two rows past it; a sprite bit on a pixel that is on, and a
sprite whose pixels are all off. -/
theorem witness_DrawXorsSpriteAndReportsCollision :
    (0 : Fin 16).val = 0 ∧ (State.reset.setI 0xFFF).i.toNat + (1 : Fin 16).val - 1 ≤ 0xFFF ∧
    ((2 : Fin 16).val ≠ 0 ∧ 0xFFF < (State.reset.setI 0xFFF).i.toNat + (2 : Fin 16).val - 1) ∧
    (let s := { State.reset with display := Display.setPixel Display.clear 0 0 true }
     spriteBit s 0 1 1 0 0 = true ∧ Display.pixel s.display 0 0 = true) ∧
    ∀ r c, spriteBit (State.reset.setI 0x300) 0 1 15 r c = true →
      Display.pixel (State.reset.setI 0x300).display r c = false := by
  refine ⟨by decide, by decide, by decide, by decide, fun r c _ => ?_⟩
  simp [State.reset, State.initial, State.setI, Display.pixel]

theorem witness_SpriteXorLaws :
    (∃ t, exec .cls State.reset = .next t) ∧ (14 : Reg) ≠ 15 ∧ (State.reset.setI 0xFF1).i.toNat + (15 : Fin 16).val ≤ 0x1000 ∧
    ((0 : Fin 16).val = 0 ∧ 0x1000 < (State.reset.setI 0xFFFF).i.toNat + (0 : Fin 16).val) ∧
    (let s := (State.reset.setI 0xFFF).writeBlock 0xFFF [0x80]
     ∃ t u, exec (.drw 14 13 1) s = .next t ∧ exec (.drw 14 13 1) t = .next u ∧ spriteBit s 14 13 1 0 0 = true ∧
      ∀ r c, Display.pixel s.display r c = false) ∧
    (let s := { State.reset with display := Vector.replicate 32 (Vector.replicate 64 true) }
     spriteBit s 14 13 1 0 0 = true ∧ ∀ r c, Display.pixel s.display r c = true) := by
  refine ⟨⟨_, rfl⟩, by decide, by decide, by decide, ⟨_, _, rfl, rfl, by decide, fun r c => ?_⟩, by decide, fun r c => ?_⟩
  · simp [State.reset, State.initial, State.setI, State.writeBlock, Display.pixel]
  · simp [Display.pixel]

/-- The last key by value, the first value that only MASK resolves, and the first that faults. -/
theorem witness_KeySkips :
    ((withV [(5, 0x0F)] State.reset).readV 5).toNat = (15 : Fin 16).val ∧
    (let s := withV [(5, 0x10)] (wordIn { Config.default with keyIndexPolicy := .mask } 0)
     s.cfg.keyIndexPolicy = .mask ∧ 0x0F < (s.readV 5).toNat ∧ (s.readV 5).toNat % 16 = (0 : Fin 16).val) ∧
    (let s := withV [(5, 0x10)] State.reset
     s.cfg.keyIndexPolicy = .fault ∧ 0x0F < (s.readV 5).toNat) := by decide

/-- The lowest key first, the highest alone, none; and a state that waits. -/
theorem witness_KeyWaitTakesLowestOrRepeats :
    (let s := (withInput [0, 15] 0 State.reset).beginStep
     s.keys[(0 : Fin 16)] = true ∧ ∀ j : Fin 16, j.val < 0 → s.keys[j] = false) ∧
    (let s := (withInput [15] 0 State.reset).beginStep
     s.keys[(15 : Fin 16)] = true ∧ ∀ j : Fin 16, j.val < 15 → s.keys[j] = false) ∧
    (∀ k : Fin 16, State.reset.keys[k] = false) ∧ (word 0xFF0A).beginStep.Waiting := by
  refine ⟨by decide, by decide, by decide, by decide, by decide, ⟨15, by decide⟩, by decide⟩

theorem witness_TicksCountDownToZero : State.reset.fault = none ∧ (after (word 0x0123)).fault ≠ none := by decide

/-- The smallest frequency and the largest `FONT_BASE`. -/
theorem witness_ConstructionResetsEverything :
    0 < 1 ∧ { Config.default with fontBase := 0x1B0 }.valid = true ∧ 0x0 ≤ 0xFFF ∧ 0xFFF ≤ 0xFFF := by decide

/-- The largest program that fits and the smallest that does not. -/
theorem witness_LoadCopiesOrFails :
    Memory.wf State.reset.cfg State.reset.mem = true ∧ State.reset.lifecycle = .constructed ∧
    (List.replicate 3584 (7 : Byte)).length ≤ 3584 ∧ 3584 < (List.replicate 3585 (7 : Byte)).length ∧
    ∃ t, step State.reset = .next t := by
  refine ⟨by decide, by decide, by rw [List.length_replicate], by rw [List.length_replicate]; decide, _, rfl⟩

theorem witness_ClockSpeedIsFixedAndUnread :
    (∃ s, newCore Config.default 1 [] = some s) ∧ (∃ t, step (word 0xF107) = .next t) ∧
    ∃ t, exec (.ldVxDt 1) State.reset = .next t := ⟨⟨_, rfl⟩, ⟨_, rfl⟩, _, rfl⟩

theorem witness_OnlyTheListedInstructionsWrite :
    State.reset.fault = none ∧
    (∃ t, exec (.ldI 0xFFF) State.reset = .next t ∧ t.fault = none ∧ t.i ≠ State.reset.i) ∧
    (∃ t, exec (.call 0xFFF) State.reset = .next t ∧ t.fault = none ∧ t.sp ≠ State.reset.sp) ∧
    ∃ t, exec (.ldB 0) (withV [(0, 0xFF)] (State.reset.setI 0xFFD)) = .next t ∧ t.fault = none ∧
      t.readByte 0xFFF ≠ State.reset.readByte 0xFFF := by
  refine ⟨by decide, ⟨_, rfl, by decide, by decide⟩, ⟨_, rfl, by decide, by decide⟩, _, rfl, by decide, by decide⟩

theorem witness_DisplayChangesOnlyByClearAndDraw :
    ∃ t, step (word 0xD001) = .next t ∧ Display.pixel t.display 0 0 ≠ Display.pixel (word 0xD001).display 0 0 := by
  refine ⟨_, rfl, by decide⟩

/-- A self-jump at the last fetchable address. -/
theorem witness_ParkedCoreStaysParked : ((State.reset.setPc 0xFFE).placeWord 0x1FFE).Parked := by
  unfold State.Parked; decide

/-- A state at the bound of the invariant: the largest `pc`, a full stack. -/
def atBound : State :=
  { (word 0x00EE).setPc 0x10FE with sp := 15, stack := (Vector.replicate 16 0x1000).set 0 0 }

theorem witness_StepKeepsInvariant : atBound.Inv ∧ step atBound = .next (after atBound) :=
  ⟨⟨by decide, by decide, by decide, by decide, by decide, by decide, by decide, fun r h => by cases h⟩, rfl⟩

theorem witness_ReachableStatesMeetInvariant : Reachable State.reset := .new (cfg := Config.default) (f := 500) rfl

/-- The last fetchable address: returning from a full stack, and a skip taken there (as T31 does at 0xFFC). -/
theorem witness_FetchedPcNeverWraps :
    (let s := { (State.reset.setPc 0xFFE).placeWord 0x00EE with sp := 15, stack := (Vector.replicate 16 0x1000).set 0 0 }
     s.Inv ∧ step s = .next (after s) ∧ (after s).fault = none) ∧
    (let s := (State.reset.setPc 0xFFE).placeWord 0x3000
     step s = .next (after s) ∧ (after s).fault = none ∧ (after s).pc = 0x1002) := by
  refine ⟨⟨⟨by decide, by decide, by decide, by decide, by decide, by decide, by decide, fun r h => by cases h⟩, rfl,
    by decide⟩, rfl, by decide, by decide⟩

end Sys2Proof.Tests
end

section
/-! PROOF. The write table of R31, as a function of the instruction. -/

namespace Sys2Proof

/-- The write table of R31: the parts an instruction that completes may change, `inc` being `LOADSTORE_I_INCREMENT`.
`result` is listed where the step returns a snapshot (R65). -/
def Instr.writes (inc : Bool) : Instr → List Machine.Part
  | .nop => []
  | .cls => [.display, .result]
  | .ret => [.pc, .sp]
  | .jp _ => [.pc]
  | .call _ => [.pc, .sp, .stack]
  | .seImm _ _ => [.pc]
  | .sneImm _ _ => [.pc]
  | .seReg _ _ => [.pc]
  | .ldImm _ _ => [.v]
  | .addImm _ _ => [.v]
  | .ldReg _ _ => [.v]
  | .orReg _ _ => [.v]
  | .andReg _ _ => [.v]
  | .xorReg _ _ => [.v]
  | .addReg _ _ => [.v]
  | .sub _ _ => [.v]
  | .shr _ _ => [.v]
  | .subn _ _ => [.v]
  | .shl _ _ => [.v]
  | .sneReg _ _ => [.pc]
  | .ldI _ => [.i]
  | .jpV0 _ => [.pc]
  | .rnd _ _ => [.v]
  | .drw _ _ _ => [.v, .display, .result]
  | .skp _ => [.pc]
  | .sknp _ => [.pc]
  | .ldVxDt _ => [.v]
  | .ldVxK _ => [.v, .pc]
  | .ldDtVx _ => [.dt]
  | .ldStVx _ => [.st]
  | .addI _ => [.i]
  | .ldF _ => [.i]
  | .ldB _ => [.mem]
  | .ldMemVx _ => .mem :: if inc then [.i] else []
  | .ldVxMem _ => .v :: if inc then [.i] else []

end Sys2Proof
end

section
/-! PROOF. What each state operation leaves alone, and that every meaning completes inside the write table or raises a fault. -/

namespace Sys2Proof.Machine

/-! ### Frames of the state operations -/

/-- The frame `OnlyChanges`, with memory also compared as it is held, not only byte by byte: the canonical form is about
the list. -/
def Keeps (parts : List Part) (s t : State) : Prop :=
  OnlyChanges parts s t ∧ (.mem ∉ parts → t.mem = s.mem)

theorem Part.Same.trans {p : Part} {s t u : State} (h : p.Same s t) (h' : p.Same t u) : p.Same s u := by
  cases p with
  | ports =>
    obtain ⟨a, b, c, d, e⟩ := h
    obtain ⟨a', b', c', d', e'⟩ := h'
    exact ⟨a'.trans a, b'.trans b, c'.trans c, d'.trans d, e'.trans e⟩
  | v => exact fun r => (h' r).trans (h r)
  | mem => exact fun a => (h' a).trans (h a)
  | _ => exact Eq.trans h' h

section
variable {ps qs : List Part} {s t u : State}

theorem Keeps.same (h : Keeps ps s t) (p : Part) (hp : p ∉ ps) : p.Same s t := h.1 p hp

theorem Keeps.trans (h : Keeps ps s t) (h' : Keeps ps t u) : Keeps ps s u :=
  ⟨fun p hp => (h.1 p hp).trans (h'.1 p hp), fun hm => (h'.2 hm).trans (h.2 hm)⟩

theorem Keeps.mono (h : Keeps ps s t) (hsub : ps ⊆ qs) : Keeps qs s t :=
  ⟨fun p hp => h.1 p fun hm => hp (hsub hm), fun hm => h.2 fun hp => hm (hsub hp)⟩

end

variable (s : State)

theorem State.keeps_self (ps : List Part) : Keeps ps s s :=
  ⟨fun p _ => by cases p <;> simp [Part.Same], fun _ => rfl⟩

theorem State.writeV_keeps (x : Reg) (b : Byte) : Keeps [.v] s (s.writeV x b) :=
  ⟨fun p hp => by cases p <;> simp_all [Part.Same], fun _ => rfl⟩

theorem State.setV_keeps (v : Vector Byte 16) : Keeps [.v] s { s with v := v } :=
  ⟨fun p hp => by cases p <;> simp_all [Part.Same, State.readByte], fun _ => rfl⟩

theorem State.setI_keeps (a : Word) : Keeps [.i] s (s.setI a) :=
  ⟨fun p hp => by cases p <;> simp_all [Part.Same], fun _ => rfl⟩

theorem State.setPc_keeps (a : Word) : Keeps [.pc] s (s.setPc a) :=
  ⟨fun p hp => by cases p <;> simp_all [Part.Same], fun _ => rfl⟩

theorem State.setDt_keeps (b : Byte) : Keeps [.dt] s (s.setDt b) :=
  ⟨fun p hp => by cases p <;> simp_all [Part.Same], fun _ => rfl⟩

theorem State.setSt_keeps (b : Byte) : Keeps [.st] s (s.setSt b) :=
  ⟨fun p hp => by cases p <;> simp_all [Part.Same], fun _ => rfl⟩

theorem State.push_keeps : Keeps [.sp, .stack] s s.push :=
  ⟨fun p hp => by cases p <;> simp_all [Part.Same], fun _ => rfl⟩

theorem State.pop_keeps : Keeps [.pc, .sp] s s.pop :=
  ⟨fun p hp => by cases p <;> simp_all [Part.Same], fun _ => rfl⟩

theorem State.show_keeps (d : Display) : Keeps [.display, .result] s (s.show d) :=
  ⟨fun p hp => by cases p <;> simp_all [Part.Same], fun _ => rfl⟩

theorem State.writeBlock_keeps (base : Nat) (bytes : List Byte) : Keeps [.mem] s (s.writeBlock base bytes) :=
  ⟨fun p hp => by cases p <;> simp_all [Part.Same], fun hm => absurd List.mem_cons_self hm⟩

theorem State.writeWithFlag_keeps (x : Reg) (b f : Byte) : Keeps [.v] s (s.writeWithFlag x b f) :=
  (s.writeV_keeps x b).trans (State.writeV_keeps _ vf f)

theorem State.writeLogic_keeps (x : Reg) (b : Byte) : Keeps [.v] s (s.writeLogic x b) := by
  unfold State.writeLogic
  split
  · exact s.writeWithFlag_keeps x b 0
  · exact s.writeV_keeps x b

theorem State.skipIf_keeps (c : Bool) : Keeps [.pc] s (s.skipIf c) := by
  unfold State.skipIf
  split
  · exact s.setPc_keeps _
  · exact s.keeps_self _

theorem State.advanceI_keeps (x : Reg) :
    Keeps (if s.cfg.loadStoreIIncrement then [.i] else []) s (s.advanceI x) := by
  unfold State.advanceI
  split
  · exact s.setI_keeps _
  · exact s.keeps_self _

/-! ### What a meaning can do -/

/-- Instruction `i` completes from `s` in `t`: it answers `t`, and only what the write table lists for it differs. -/
def Completes (i : Instr) (s t : State) : Prop :=
  exec i s = .next t ∧ Keeps (i.writes s.cfg.loadStoreIIncrement) s t

/-- What the meaning of an instruction can do: complete inside the write table, or raise a fault. -/
theorem exec_cases (i : Instr) :
    (∃ t, Completes i s t) ∨ ∃ k d, exec i s = .next (s.raiseFault i k d) := by
  cases i with
  | nop => exact .inl ⟨_, rfl, s.keeps_self _⟩
  | cls => exact .inl ⟨_, rfl, s.show_keeps _⟩
  | ret =>
    by_cases h : s.sp = 0
    · exact .inr ⟨_, _, if_pos h⟩
    · exact .inl ⟨_, if_neg h, s.pop_keeps⟩
  | jp nnn => exact .inl ⟨_, rfl, s.setPc_keeps _⟩
  | call nnn =>
    by_cases h : s.sp = 15
    · exact .inr ⟨_, _, if_pos h⟩
    · exact .inl ⟨_, if_neg h,
        (s.push_keeps.mono (by simp [Instr.writes])).trans ((State.setPc_keeps _ _).mono (by simp [Instr.writes]))⟩
  | seImm x kk => exact .inl ⟨_, rfl, s.skipIf_keeps _⟩
  | sneImm x kk => exact .inl ⟨_, rfl, s.skipIf_keeps _⟩
  | seReg x y => exact .inl ⟨_, rfl, s.skipIf_keeps _⟩
  | ldImm x kk => exact .inl ⟨_, rfl, s.writeV_keeps _ _⟩
  | addImm x kk => exact .inl ⟨_, rfl, s.writeV_keeps _ _⟩
  | ldReg x y => exact .inl ⟨_, rfl, s.writeV_keeps _ _⟩
  | orReg x y => exact .inl ⟨_, rfl, s.writeLogic_keeps _ _⟩
  | andReg x y => exact .inl ⟨_, rfl, s.writeLogic_keeps _ _⟩
  | xorReg x y => exact .inl ⟨_, rfl, s.writeLogic_keeps _ _⟩
  | addReg x y => exact .inl ⟨_, rfl, s.writeWithFlag_keeps _ _ _⟩
  | sub x y => exact .inl ⟨_, rfl, s.writeWithFlag_keeps _ _ _⟩
  | shr x y => exact .inl ⟨_, rfl, s.writeWithFlag_keeps _ _ _⟩
  | subn x y => exact .inl ⟨_, rfl, s.writeWithFlag_keeps _ _ _⟩
  | shl x y => exact .inl ⟨_, rfl, s.writeWithFlag_keeps _ _ _⟩
  | sneReg x y => exact .inl ⟨_, rfl, s.skipIf_keeps _⟩
  | ldI nnn => exact .inl ⟨_, rfl, s.setI_keeps _⟩
  | jpV0 nnn => exact .inl ⟨_, rfl, s.setPc_keeps _⟩
  | rnd x kk => exact .inl ⟨_, rfl, s.writeV_keeps _ _⟩
  | drw x y n =>
    simp only [Completes, exec, execDrw]
    split
    · exact .inr ⟨_, _, rfl⟩
    · exact .inl ⟨_, rfl,
        (((s.writeV_keeps _ _).trans (State.writeV_keeps _ _ _)).mono (by simp [Instr.writes])).trans
          ((State.show_keeps _ _).mono (by simp [Instr.writes]))⟩
  | skp x =>
    simp only [Completes, exec, execSkp]
    split
    · exact .inr ⟨_, _, rfl⟩
    · exact .inl ⟨_, rfl, s.skipIf_keeps _⟩
  | sknp x =>
    simp only [Completes, exec, execSknp]
    split
    · exact .inr ⟨_, _, rfl⟩
    · exact .inl ⟨_, rfl, s.skipIf_keeps _⟩
  | ldVxDt x => exact .inl ⟨_, rfl, s.writeV_keeps _ _⟩
  | ldVxK x =>
    refine .inl ⟨_, rfl, ?_⟩
    split
    · exact (s.writeV_keeps _ _).mono (by simp [Instr.writes])
    · exact (s.setPc_keeps _).mono (by simp [Instr.writes])
  | ldDtVx x => exact .inl ⟨_, rfl, s.setDt_keeps _⟩
  | ldStVx x => exact .inl ⟨_, rfl, s.setSt_keeps _⟩
  | addI x => exact .inl ⟨_, rfl, s.setI_keeps _⟩
  | ldF x => exact .inl ⟨_, rfl, s.setI_keeps _⟩
  | ldB x =>
    simp only [Completes, exec, execLdB]
    split
    · exact .inr ⟨_, _, rfl⟩
    · exact .inl ⟨_, rfl, s.writeBlock_keeps _ _⟩
  | ldMemVx x =>
    simp only [Completes, exec, execLdMemVx]
    split
    · exact .inr ⟨_, _, rfl⟩
    · exact .inl ⟨_, rfl, ((s.writeBlock_keeps _ _).mono (by simp [Instr.writes])).trans
        ((State.advanceI_keeps _ x).mono (List.subset_cons_self _ _))⟩
  | ldVxMem x =>
    simp only [Completes, exec, execLdVxMem]
    split
    · exact .inr ⟨_, _, rfl⟩
    · exact .inl ⟨_, rfl, ((s.setV_keeps _).mono (by simp [Instr.writes])).trans
        ((State.advanceI_keeps _ x).mono (List.subset_cons_self _ _))⟩

end Sys2Proof.Machine
end


section
/-! PROOF. Which instructions the write table lists for each part (R31). -/

namespace Sys2Proof.Instr

open Machine

variable {i : Instr} {inc : Bool}

theorem of_i_mem_writes (h : Part.i ∈ i.writes inc) :
    (∃ nnn, i = .ldI nnn) ∨ (∃ x, i = .addI x) ∨ (∃ x, i = .ldF x) ∨
      (inc = true ∧ ((∃ x, i = .ldMemVx x) ∨ ∃ x, i = .ldVxMem x)) := by
  cases i <;> simp_all [writes]

theorem of_pc_mem_writes (h : Part.pc ∈ i.writes inc) :
    i = .ret ∨ (∃ nnn, i = .jp nnn) ∨ (∃ nnn, i = .call nnn) ∨ (∃ nnn, i = .jpV0 nnn) ∨
      (∃ x kk, i = .seImm x kk) ∨ (∃ x kk, i = .sneImm x kk) ∨ (∃ x y, i = .seReg x y) ∨ (∃ x y, i = .sneReg x y) ∨
      (∃ x, i = .skp x) ∨ (∃ x, i = .sknp x) ∨ ∃ x, i = .ldVxK x := by
  cases i <;> simp_all [writes]

theorem of_sp_mem_writes (h : Part.sp ∈ i.writes inc) : i = .ret ∨ ∃ nnn, i = .call nnn := by
  cases i <;> simp_all [writes]

theorem of_stack_mem_writes (h : Part.stack ∈ i.writes inc) : ∃ nnn, i = .call nnn := by
  cases i <;> simp_all [writes]

theorem of_display_mem_writes (h : Part.display ∈ i.writes inc) : Spec.Draws i := by
  cases i <;> simp_all [writes, Spec.Draws]

theorem of_dt_mem_writes (h : Part.dt ∈ i.writes inc) : ∃ x, i = .ldDtVx x := by
  cases i <;> simp_all [writes]

theorem of_st_mem_writes (h : Part.st ∈ i.writes inc) : ∃ x, i = .ldStVx x := by
  cases i <;> simp_all [writes]

theorem of_mem_mem_writes (h : Part.mem ∈ i.writes inc) : (∃ x, i = .ldB x) ∨ ∃ x, i = .ldMemVx x := by
  cases i <;> simp_all [writes]

/-- No instruction that completes writes the configuration, the clock speed, the fault state or the model's ports. -/
theorem not_mem_writes {p : Part} (h : p = .cfg ∨ p = .clockSpeed ∨ p = .fault ∨ p = .ports) :
    p ∉ i.writes inc := by
  cases i <;> rcases h with rfl | rfl | rfl | rfl <;> simp [writes]

end Sys2Proof.Instr
end


section
/-! PROOF. What an instruction that completes does to memory, the stack and `pc`. -/

namespace Sys2Proof.Machine

open Spec

section
variable {i : Instr} {s t : State}

theorem Completes.same (h : Completes i s t) (p : Part) (hp : p ∉ i.writes s.cfg.loadStoreIIncrement) : p.Same s t :=
  h.2.same p hp

theorem Completes.cfg (h : Completes i s t) : t.cfg = s.cfg := h.same .cfg (Instr.not_mem_writes (by simp))

theorem Completes.clockSpeed (h : Completes i s t) : t.clockSpeed = s.clockSpeed :=
  h.same .clockSpeed (Instr.not_mem_writes (by simp))

theorem Completes.fault (h : Completes i s t) : t.fault = s.fault := h.same .fault (Instr.not_mem_writes (by simp))

/-- A meaning that answers an unfaulted state has completed. -/
theorem completes_of_exec (h : exec i s = .next t) (ht : t.fault = none) : Completes i s t := by
  rcases exec_cases s i with ⟨u, hu⟩ | ⟨k, d, hr⟩
  · obtain rfl : u = t := Host.Outcome.next.inj (hu.1.symm.trans h)
    exact hu
  · obtain rfl : s.raiseFault i k d = t := Host.Outcome.next.inj (hr.symm.trans h)
    cases ht

/-! ### The instructions with a check of their own, where the check passes -/

theorem exec_ret_inv (h : exec .ret s = .next t) (ht : t.fault = none) : s.sp ≠ 0 ∧ t = s.pop := by
  simp only [exec, execRet] at h
  split at h
  · cases h; cases ht
  · next hsp => cases h; exact ⟨hsp, rfl⟩

theorem exec_call_inv {nnn : Addr} (h : exec (.call nnn) s = .next t) (ht : t.fault = none) :
    s.sp ≠ 15 ∧ t = s.push.setPc (addrWord nnn) := by
  simp only [exec, execCall] at h
  split at h
  · cases h; cases ht
  · next hsp => cases h; exact ⟨hsp, rfl⟩

theorem exec_skp_inv {x : Reg} (h : exec (.skp x) s = .next t) (ht : t.fault = none) :
    ∃ k, keyNumber s.cfg (s.readV x) = some k ∧ t = s.skipIf s.keys[k] := by
  simp only [exec, execSkp] at h
  split at h
  · cases h; cases ht
  · next k hk => cases h; exact ⟨k, hk, rfl⟩

theorem exec_sknp_inv {x : Reg} (h : exec (.sknp x) s = .next t) (ht : t.fault = none) :
    ∃ k, keyNumber s.cfg (s.readV x) = some k ∧ t = s.skipIf (!s.keys[k]) := by
  simp only [exec, execSknp] at h
  split at h
  · cases h; cases ht
  · next k hk => cases h; exact ⟨k, hk, rfl⟩

theorem exec_ldB_inv {x : Reg} (h : exec (.ldB x) s = .next t) (ht : t.fault = none) :
    s.i.toNat + 3 ≤ Config.addrMax + 1 ∧ t = s.writeBlock s.i.toNat (decimalDigits (s.readV x)) := by
  simp only [exec, execLdB] at h
  split at h
  · cases h; cases ht
  · next hb => cases h; exact ⟨by simpa using firstBad_eq_none.1 hb, rfl⟩

theorem exec_ldMemVx_inv {x : Reg} (h : exec (.ldMemVx x) s = .next t) (ht : t.fault = none) :
    s.i.toNat + (x.val + 1) ≤ Config.addrMax + 1 ∧
      t = (s.writeBlock s.i.toNat (s.v.toList.take (x.val + 1))).advanceI x := by
  simp only [exec, execLdMemVx] at h
  split at h
  · cases h; simp at ht
  · next hb => cases h; exact ⟨by simpa using firstBad_eq_none.1 hb, rfl⟩

theorem exec_ldVxMem_inv {x : Reg} (h : exec (.ldVxMem x) s = .next t) (ht : t.fault = none) :
    s.i.toNat + (x.val + 1) ≤ Config.addrMax + 1 ∧
      t = State.advanceI { s with v := loadRegs s.v 0 (s.readBlock s.i.toNat (x.val + 1)) } x := by
  simp only [exec, execLdVxMem] at h
  split at h
  · cases h; simp at ht
  · next hb => cases h; exact ⟨by simpa using firstBad_eq_none.1 hb, rfl⟩

theorem exec_ldVxK_inv {x : Reg} (h : exec (.ldVxK x) s = .next t) :
    (∃ k, lowestKey s.keys = some k ∧ t = s.writeV x (BitVec.ofNat 8 k)) ∨
      lowestKey s.keys = none ∧ t = s.setPc (s.pc - 2) := by
  simp only [exec, execLdVxK] at h
  split at h
  · next k hk => cases h; exact .inl ⟨k, hk, rfl⟩
  · next hk => cases h; exact .inr ⟨hk, rfl⟩

theorem exec_drw_inv {x y : Reg} {n : Fin 16} (h : exec (.drw x y n) s = .next t) (ht : t.fault = none) :
    ∃ c d, t = ((s.writeV vf 0).writeV vf (flagByte c)).show d := by
  simp only [exec, execDrw] at h
  split at h
  · cases h; cases ht
  · cases h; exact ⟨_, _, rfl⟩

/-! ### Memory, stack and `pc` after an instruction -/

/-- Memory changes only by one block of bytes stored inside the address space (R37). -/
theorem exec_mem_cases (h : exec i s = .next t) (ht : t.fault = none) :
    t.mem = s.mem ∨ ∃ base bytes, base + List.length bytes ≤ Config.addrMax + 1 ∧
      t.mem = Memory.writeBlock s.cfg s.mem base bytes := by
  by_cases hm : Part.mem ∈ i.writes s.cfg.loadStoreIIncrement
  · right
    rcases Instr.of_mem_mem_writes hm with ⟨x, rfl⟩ | ⟨x, rfl⟩
    · obtain ⟨hb, rfl⟩ := exec_ldB_inv h ht
      exact ⟨_, _, hb, rfl⟩
    · obtain ⟨hb, rfl⟩ := exec_ldMemVx_inv h ht
      refine ⟨_, _, ?_, State.advanceI_mem _ _⟩
      rwa [List.length_take_of_le (by simp)]
  · exact .inl ((completes_of_exec h ht).2.2 hm)

/-- A stack entry changes only by the push of a CALL, which writes `pc` and never entry 0 (R18, R73). -/
theorem exec_stack_entry (h : exec i s = .next t) (ht : t.fault = none) (j : Fin 16) :
    t.stack[j] = s.stack[j] ∨ j ≠ 0 ∧ t.stack[j] = s.pc := by
  by_cases hm : Part.stack ∈ i.writes s.cfg.loadStoreIIncrement
  · obtain ⟨nnn, rfl⟩ := Instr.of_stack_mem_writes hm
    obtain ⟨hsp, rfl⟩ := exec_call_inv h ht
    have hne : s.sp + 1 ≠ 0 := by omega
    by_cases hj : s.sp + 1 = j
    · subst hj
      exact .inr ⟨hne, by simp⟩
    · have : ((s.sp + 1 : Fin 16) : Nat) ≠ j := fun e => hj (Fin.ext e)
      exact .inl (by simp [this])
  · have hsame : t.stack = s.stack := (completes_of_exec h ht).same .stack hm
    exact .inl (by rw [hsame])

/-- `a` is the address that the transfer `i` goes to (R71 to R73, R78). -/
def JumpsTo (i : Instr) (s : State) (a : Word) : Prop :=
  i = .ret ∧ a = s.stack[s.sp] ∨
  ∃ nnn, (i = .jp nnn ∨ i = .call nnn) ∧ a = addrWord nnn ∨
    i = .jpV0 nnn ∧ a = addrWord nnn + byteWord (s.readV 0)

theorem JumpsTo.isTransfer {a : Word} (h : JumpsTo i s a) :
    i = .ret ∨ ∃ nnn, i = .jp nnn ∨ i = .call nnn ∨ i = .jpV0 nnn := by
  rcases h with ⟨hi, -⟩ | ⟨nnn, ⟨hi | hi, -⟩ | ⟨hi, -⟩⟩ <;> simp [hi]

/-- Where `pc` is after an instruction: it stays past the instruction, skips the next one, goes back to repeat, or
is the target of a transfer. -/
theorem exec_pc_cases (h : exec i s = .next t) (ht : t.fault = none) :
    t.pc = s.pc ∨ t.pc = s.pc + 2 ∨ t.pc = s.pc - 2 ∨ JumpsTo i s t.pc := by
  have skip (c : Bool) : (s.skipIf c).pc = s.pc ∨ (s.skipIf c).pc = s.pc + 2 := by
    cases c <;> simp
  by_cases hm : Part.pc ∈ i.writes s.cfg.loadStoreIIncrement
  · rcases Instr.of_pc_mem_writes hm with rfl | ⟨nnn, rfl⟩ | ⟨nnn, rfl⟩ | ⟨nnn, rfl⟩ | ⟨x, kk, rfl⟩ |
      ⟨x, kk, rfl⟩ | ⟨x, y, rfl⟩ | ⟨x, y, rfl⟩ | ⟨x, rfl⟩ | ⟨x, rfl⟩ | ⟨x, rfl⟩
    · obtain ⟨-, rfl⟩ := exec_ret_inv h ht
      simp [JumpsTo]
    · cases h; simp [JumpsTo]
    · obtain ⟨-, rfl⟩ := exec_call_inv h ht
      simp [JumpsTo]
    · cases h; simp [JumpsTo]
    · cases h; exact (skip _).imp_right .inl
    · cases h; exact (skip _).imp_right .inl
    · cases h; exact (skip _).imp_right .inl
    · cases h; exact (skip _).imp_right .inl
    · obtain ⟨k, -, rfl⟩ := exec_skp_inv h ht
      exact (skip _).imp_right .inl
    · obtain ⟨k, -, rfl⟩ := exec_sknp_inv h ht
      exact (skip _).imp_right .inl
    · rcases exec_ldVxK_inv h with ⟨k, -, rfl⟩ | ⟨-, rfl⟩
      · exact .inl rfl
      · exact .inr (.inr (.inl rfl))
  · exact .inl ((completes_of_exec h ht).same .pc hm)

end

end Sys2Proof.Machine
end


section
/-! PROOF. What a step can do, and the invariant of R28: every operation of the host and every step keeps it. -/

namespace Sys2Proof.Machine

open Spec

/-! ### What a step can do -/

section
variable {s t : State}

/-- Raising a fault in a meaning is taking it before the fetch: the advance of `pc` is undone (R117). -/
theorem State.raiseFault_fetched (s : State) (i : Instr) (k : FaultKind) (d : Word) :
    s.fetched.raiseFault i k d = s.takeFault k (some (encode i)) d := by
  simp [State.raiseFault, State.takeFault, State.setPc, State.fetched]

theorem State.fetches_fetchWord (s : State) (hf : s.fault = none) (hk : s.fetchFault = none) :
    Fetches s s.fetchWord := by
  obtain ⟨hpc, heven⟩ := s.fetchFault_eq_none.1 hk
  exact ⟨hf, hpc, heven, rfl⟩

/-- What a step can do: return the record of a faulted core again (R66), take a fault (R117), or run the instruction it
fetched to its end. -/
theorem step_cases (s : State) :
    (∃ r, s.fault = some r ∧ step s = .next { s.beginStep with result := .faulted r }) ∨
    (s.fault = none ∧ ∃ k w d, step s = .next (s.beginStep.takeFault k w d)) ∨
    (s.fault = none ∧ ∃ w i t, Fetches s.beginStep w ∧ decode s.cfg.admitGk w = .instr i ∧ step s = .next t ∧
      Completes i s.beginStep.fetched t) := by
  rcases s.beginStep.cycle_cases with ⟨r, hr, h⟩ | ⟨hf, k, -, h⟩ | ⟨hf, -, -, h⟩ | ⟨hf, hk, i, hd, h⟩ <;>
    rw [← step] at h
  · exact .inl ⟨r, by simpa using hr, h⟩
  · exact .inr (.inl ⟨by simpa using hf, _, _, _, h⟩)
  · exact .inr (.inl ⟨by simpa using hf, _, _, _, h⟩)
  · have hs : s.fault = none := by simpa using hf
    rcases exec_cases s.beginStep.fetched i with ⟨t, ht⟩ | ⟨k, d, hr⟩
    · exact .inr (.inr ⟨hs, _, i, t, s.beginStep.fetches_fetchWord hf hk, by simpa using hd, h.trans ht.1, ht⟩)
    · exact .inr (.inl ⟨hs, k, _, d, by rw [h, hr, State.raiseFault_fetched]⟩)

/-- A step that ends unfaulted ran the instruction it fetched to its end. -/
theorem completes_of_step (h : step s = .next t) (ht : t.fault = none) :
    ∃ w i, Fetches s.beginStep w ∧ decode s.cfg.admitGk w = .instr i ∧ Completes i s.beginStep.fetched t := by
  rcases step_cases s with ⟨r, hr, h'⟩ | ⟨-, k, w, d, h'⟩ | ⟨-, w, i, u, hw, hd, h', hc⟩ <;>
    cases h.symm.trans h'
  · simp [hr] at ht
  · cases ht
  · exact ⟨w, i, hw, hd, hc⟩

end

/-! ### The invariant: the host's operations -/

section
variable {s t : State}

/-- The invariant speaks of seven fields only. -/
theorem State.Inv.congr (h : s.Inv) (hcfg : t.cfg = s.cfg) (hclock : t.clockSpeed = s.clockSpeed) (hpc : t.pc = s.pc)
    (hstack : t.stack = s.stack) (hmem : t.mem = s.mem) (hfault : t.fault = s.fault) (hresult : t.result = s.result) :
    t.Inv where
  memCanonical := by rw [hcfg, hmem]; exact h.memCanonical
  cfgValid := by rw [hcfg]; exact h.cfgValid
  clockPositive := by rw [hclock]; exact h.clockPositive
  pcBound := by rw [hpc]; exact h.pcBound
  stackBound := by rw [hstack]; exact h.stackBound
  stackEven := by rw [hcfg, hstack]; exact h.stackEven
  stackBase := by rw [hstack]; exact h.stackBase
  faultShown := by rw [hfault, hresult, hpc]; exact h.faultShown

theorem State.Inv.tickTimers (h : s.Inv) : s.tickTimers.Inv :=
  h.congr (by simp) (by simp) (by simp) (by simp) (by simp) (by simp) (by simp)

theorem State.Inv.beginStep (h : s.Inv) : s.beginStep.Inv :=
  h.congr (by simp) (by simp) (by simp) (by simp) (by simp) (by simp) (by simp)

theorem State.Inv.setSchedule (h : s.Inv) (sch : List StepInput) : State.Inv { s with schedule := sch } :=
  h.congr rfl rfl rfl rfl rfl rfl rfl

/-- Construction gives memory with nothing listed, an empty stack, `pc` at 0x200 and no fault (R29). -/
theorem State.inv_initial {cfg : Config} {d : Duration} (hcfg : cfg.valid = true) (hd : 0 < d.den)
    (sch : List StepInput) : (State.initial cfg d sch).Inv where
  memCanonical := Memory.wf_nil cfg
  cfgValid := hcfg
  clockPositive := hd
  pcBound := by simp [State.initial, Config.progOrigin]
  stackBound := by simp [State.initial]
  stackEven _ := by simp [State.initial]
  stackBase := rfl
  faultShown _ h := by cases h

/-- What `newCore` answers: the initial state, for a positive frequency and an admitted configuration (R128). -/
theorem newCore_eq_some {cfg : Config} {f : Nat} {sch : List StepInput} :
    newCore cfg f sch = some s ↔ 0 < f ∧ cfg.valid = true ∧ s = State.initial cfg { num := 1, den := f } sch := by
  unfold newCore
  split
  · next h =>
    simp only [Bool.or_eq_true, decide_eq_true_eq, Bool.not_eq_true'] at h
    simp only [reduceCtorEq, false_iff]
    rintro ⟨hf, hv, -⟩
    rcases h with h | h
    · omega
    · simp [hv] at h
  · next h =>
    simp only [Bool.or_eq_true, decide_eq_true_eq, Bool.not_eq_true', not_or, Bool.not_eq_false] at h
    simp [Nat.pos_of_ne_zero h.1, h.2, eq_comm]

theorem State.inv_of_newCore {cfg : Config} {f : Nat} {sch : List StepInput} (h : newCore cfg f sch = some s) :
    s.Inv := by
  obtain ⟨hf, hv, rfl⟩ := newCore_eq_some.1 h
  exact State.inv_initial hv hf sch

/-- A load that succeeds stores at most 3584 bytes from 0x200 (R130). -/
theorem State.load_eq_ok {bytes : Option (List Byte)} (h : s.load bytes = .ok t) :
    ∃ bs, Config.progOrigin + List.length bs ≤ Config.addrMax + 1 ∧
      t = { s.writeBlock Config.progOrigin bs with lifecycle := .loaded } := by
  unfold State.load at h
  split at h
  · cases h
  · cases bytes with
    | none => cases h
    | some bs =>
      simp only at h
      split at h
      · cases h
      · next hlen => cases h; exact ⟨bs, by simp [Config.progOrigin, Config.addrMax] at hlen ⊢; omega, rfl⟩

theorem State.Inv.load {bytes : Option (List Byte)} (h : s.Inv) (ht : s.load bytes = .ok t) : t.Inv := by
  obtain ⟨bs, hlen, rfl⟩ := State.load_eq_ok ht
  exact { memCanonical := Memory.wf_writeBlock h.memCanonical hlen, cfgValid := h.cfgValid,
          clockPositive := h.clockPositive, pcBound := h.pcBound, stackBound := h.stackBound,
          stackEven := h.stackEven, stackBase := h.stackBase, faultShown := h.faultShown }

/-! ### The invariant: the three outcomes of a step -/

/-- A faulted core that returns its record again keeps the invariant (R66). -/
theorem State.Inv.showRecord (h : s.Inv) {r : FaultRecord} (hr : s.fault = some r) :
    State.Inv { s with result := .faulted r } where
  memCanonical := h.memCanonical
  cfgValid := h.cfgValid
  clockPositive := h.clockPositive
  pcBound := h.pcBound
  stackBound := h.stackBound
  stackEven := h.stackEven
  stackBase := h.stackBase
  faultShown r' h' := by
    obtain rfl : r = r' := Option.some.inj (hr.symm.trans h')
    exact ⟨rfl, (h.faultShown r hr).2⟩

/-- Taking a fault records the `pc` it leaves in place (R116, R117). -/
theorem State.Inv.takeFault (h : s.Inv) (k : FaultKind) (w : Option Word) (d : Word) : (s.takeFault k w d).Inv where
  memCanonical := h.memCanonical
  cfgValid := h.cfgValid
  clockPositive := h.clockPositive
  pcBound := h.pcBound
  stackBound := h.stackBound
  stackEven := h.stackEven
  stackBase := h.stackBase
  faultShown r hr := by
    obtain rfl := Option.some.inj hr
    exact ⟨rfl, rfl⟩

/-- Every target of a transfer is at most 0x10FE: 0xFFF plus a byte (R78), or a return address. -/
theorem JumpsTo.le {i : Instr} {a : Word} (h : JumpsTo i s a) (hs : s.Inv) : a.toNat ≤ 0x10FE := by
  have addr (nnn : Addr) : (addrWord nnn).toNat = nnn.toNat := by
    simp [addrWord]; omega
  have byte (b : Byte) : (byteWord b).toNat = b.toNat := by
    simp [byteWord]; omega
  rcases h with ⟨-, rfl⟩ | ⟨nnn, ⟨-, rfl⟩ | ⟨-, rfl⟩⟩
  · exact (hs.stackBound s.sp).trans (by decide)
  · rw [addr]; omega
  · rw [BitVec.toNat_add, addr, byte]; omega

end

section
variable {s t : State} {i : Instr} {w : Word}

/-- A fetch that passes its checks does not wrap (R16). -/
theorem fetched_pc_toNat (h : Fetches s w) : s.fetched.pc.toNat = s.pc.toNat + 2 := by
  obtain ⟨-, hpc, -⟩ := h
  simp [BitVec.toNat_add]
  omega

theorem State.Inv.fetched (h : s.Inv) (hw : Fetches s w) : s.fetched.Inv where
  memCanonical := h.memCanonical
  cfgValid := h.cfgValid
  clockPositive := h.clockPositive
  pcBound := by
    have := fetched_pc_toNat hw
    obtain ⟨-, hpc, -⟩ := hw
    omega
  stackBound := h.stackBound
  stackEven := h.stackEven
  stackBase := h.stackBase
  faultShown r hr := by cases hw.1.symm.trans hr

/-- An instruction that completes keeps the invariant, from a state whose `pc` is where a fetch can leave it. -/
theorem State.Inv.of_completes (h : s.Inv) (hf : s.fault = none) (hlow : 2 ≤ s.pc.toNat)
    (hhigh : s.pc.toNat ≤ 0x1000) (heven : s.cfg.fetchAlignment = .strict → s.pc.toNat % 2 = 0)
    (hc : Completes i s t) : t.Inv := by
  have ht : t.fault = none := hc.fault.trans hf
  have hstack (j : Fin 16) := exec_stack_entry hc.1 ht j
  constructor
  case memCanonical =>
    rw [hc.cfg]
    rcases exec_mem_cases hc.1 ht with hm | ⟨base, bytes, hb, hm⟩
    · rw [hm]; exact h.memCanonical
    · rw [hm]; exact Memory.wf_writeBlock h.memCanonical hb
  case cfgValid => rw [hc.cfg]; exact h.cfgValid
  case clockPositive => rw [hc.clockSpeed]; exact h.clockPositive
  case pcBound =>
    rcases exec_pc_cases hc.1 ht with hp | hp | hp | hj
    · rw [hp]; exact h.pcBound
    · rw [hp]; bv_omega
    · rw [hp]; bv_omega
    · exact hj.le h
  case stackBound =>
    intro j
    rcases hstack j with hj | ⟨-, hj⟩
    · rw [hj]; exact h.stackBound j
    · rw [hj]; exact hhigh
  case stackEven =>
    intro hstrict j
    rw [hc.cfg] at hstrict
    rcases hstack j with hj | ⟨-, hj⟩
    · rw [hj]; exact h.stackEven hstrict j
    · rw [hj]; exact heven hstrict
  case stackBase =>
    rcases hstack 0 with hj | ⟨hne, -⟩
    · exact hj.trans h.stackBase
    · exact absurd rfl hne
  case faultShown =>
    intro r hr
    cases ht.symm.trans hr

end

/-- Settles O52: each of the three outcomes of a step keeps the invariant. -/
theorem stepKeepsInvariant : Obligations.StepKeepsInvariant := by
  intro s t hs h
  have hb := hs.beginStep
  rcases step_cases s with ⟨r, hr, h'⟩ | ⟨-, k, w, d, h'⟩ | ⟨-, w, i, u, hw, -, h', hc⟩ <;>
    cases h.symm.trans h'
  · exact hb.showRecord (by simpa using hr)
  · exact hb.takeFault k w d
  · have hpc := fetched_pc_toNat hw
    obtain ⟨hf, hle, heven, -⟩ := id hw
    exact (hb.fetched hw).of_completes hf (by omega) (by omega) (fun hstrict => by have := heven hstrict; omega) hc

end Sys2Proof.Machine
end


section
/-! PROOF. Reachable states, what a step leaves alone and does not read, `pc` after a step, and construction. -/

namespace Sys2Proof.Machine

open Spec

/-- Settles O51: reset is a construction, and every construction meets the invariant. -/
theorem resetMeetsInvariant : Obligations.ResetMeetsInvariant :=
  ⟨rfl, State.inv_of_newCore (cfg := Config.default) (f := 500) rfl⟩

/-- Settles O53, by induction on how the state is reached. -/
theorem reachableStatesMeetInvariant : Obligations.ReachableStatesMeetInvariant := by
  intro s hs
  induction hs with
  | new h => exact State.inv_of_newCore h
  | load _ h ih => exact ih.load h
  | tick _ ih => exact ih.tickTimers
  | step _ h ih => exact stepKeepsInvariant _ _ ih h
  | input sch _ ih => exact ih.setSchedule sch

/-- Settles O15: each outcome of `step_cases` is a next state. -/
theorem everyStepHasANextState : Obligations.EveryStepHasANextState := by
  intro s
  rcases step_cases s with ⟨r, -, h⟩ | ⟨-, k, w, d, h⟩ | ⟨-, w, i, t, -, -, h, -⟩
  · exact ⟨_, h⟩
  · exact ⟨_, h⟩
  · exact ⟨t, h⟩

/-- Settles O49: of the three outcomes of a step only a completed CLS or DRW changes the display. -/
theorem displayChangesOnlyByClearAndDraw : Obligations.DisplayChangesOnlyByClearAndDraw := by
  intro s t h r c hne
  have hdisplay : t.display ≠ s.display := fun e => hne (by rw [e])
  rcases step_cases s with ⟨r, -, h'⟩ | ⟨-, k, w, d, h'⟩ | ⟨hf, w, i, u, hw, hd, h', hc⟩ <;>
    cases h.symm.trans h'
  · exact absurd s.beginStep_display hdisplay
  · exact absurd s.beginStep_display hdisplay
  · refine ⟨hc.fault.trans (by simpa using hf), w, i, hw, hd, ?_⟩
    by_contra hdraws
    have hsame : t.display = s.beginStep.display :=
      hc.same .display fun hm => hdraws (Instr.of_display_mem_writes hm)
    exact hdisplay (hsame.trans s.beginStep_display)

/-- Settles O54: the step completed an instruction whose fetch passed its checks, so `pc` is as `exec_pc_cases` says. -/
theorem fetchedPcNeverWraps : Obligations.FetchedPcNeverWraps := by
  intro s t h ht
  obtain ⟨w, i, hw, hd, hc⟩ := completes_of_step h ht
  have hfetched := fetched_pc_toNat hw
  obtain ⟨-, hpc, heven, -⟩ := id hw
  simp only [State.fetched_pc, State.beginStep_pc, State.beginStep_cfg] at hfetched hpc heven
  have h4 : (s.pc + 4).toNat = s.pc.toNat + 4 := by bv_omega
  refine ⟨hpc, heven, hfetched, h4, ?_, fun hs => (stepKeepsInvariant s t hs h).pcBound⟩
  rcases exec_pc_cases hc.1 ht with hp | hp | hp | hj
  · exact .inr (.inl (by rw [hp, State.fetched_pc, State.beginStep_pc, hfetched]))
  · exact .inr (.inr (.inl (by rw [hp, State.fetched_pc, State.beginStep_pc]; bv_omega)))
  · exact .inl (by simp [hp])
  · exact .inr (.inr (.inr ⟨w, i, hw, hd, hj.isTransfer⟩))

/-! ### The write table (R31) -/

/-- Settles O48: what changed is listed in the write table, and the table lists a part for no other instruction. -/
theorem onlyTheListedInstructionsWrite : Obligations.OnlyTheListedInstructionsWrite := by
  intro i s t _ h ht
  have hc := completes_of_exec h ht
  have listed {p : Part} (hne : ¬ p.Same s t) : p ∈ i.writes s.cfg.loadStoreIIncrement := by
    by_contra hp
    exact hne (hc.same p hp)
  refine ⟨fun hne => ?_, fun hne => ?_, fun hne => ?_, fun hne => ?_, fun hne => ?_, fun hne => ?_, fun hne => ?_,
    fun ⟨a, hne⟩ => ?_, hc.cfg, hc.clockSpeed, hc.same .ports (Instr.not_mem_writes (by simp))⟩
  · exact Instr.of_i_mem_writes (listed hne)
  · exact Instr.of_pc_mem_writes (listed hne)
  · exact Instr.of_sp_mem_writes (listed hne)
  · exact Instr.of_stack_mem_writes (listed hne)
  · exact Instr.of_display_mem_writes (listed hne)
  · exact Instr.of_dt_mem_writes (listed hne)
  · exact Instr.of_st_mem_writes (listed hne)
  · exact Instr.of_mem_mem_writes (listed fun hs => hne (hs a))

/-! ### Construction (R29, R40) -/

/-- The glyphs laid one after another are the font bytes (R40). -/
theorem glyph_eq_fontBytes : ∀ k < 80, (glyph (k / 5)).getD (k % 5) 0 = fontBytes.getD k 0 := by decide

theorem glyph_eq_nil {d : Nat} (h : 16 ≤ d) : glyph d = [] := by
  unfold glyph
  split
  case h_17 => rfl
  all_goals omega

/-- The reset contents of every address: the font where it is loaded, zero elsewhere. -/
theorem resetByte_eq (cfg : Config) (a : Nat) :
    resetByte cfg a =
      if cfg.fontLoaded = true ∧ cfg.fontBase ≤ a ∧ a ≤ cfg.fontBase + 79 then fontBytes.getD (a - cfg.fontBase) 0
      else 0 := by
  by_cases hfont : cfg.fontLoaded = true ∧ cfg.fontBase ≤ a
  · by_cases htop : a ≤ cfg.fontBase + 79
    · rw [if_pos ⟨hfont.1, hfont.2, htop⟩, ← glyph_eq_fontBytes _ (by omega)]
      simp [resetByte, hfont]
    · rw [if_neg fun h => htop h.2.2]
      simp [resetByte, hfont, glyph_eq_nil (d := (a - cfg.fontBase) / 5) (by omega)]
  · rw [if_neg fun h => hfont ⟨h.1, h.2.1⟩]
    simp only [resetByte, Bool.and_eq_true, decide_eq_true_eq, hfont, if_false]

/-- Settles O45: construction answers the initial state, whose memory lists nothing and so reads as its reset contents. -/
theorem constructionResetsEverything : Obligations.ConstructionResetsEverything := by
  intro cfg f sch
  refine ⟨fun hf => by simp [newCore, hf], fun hf hv => ?_⟩
  refine ⟨_, newCore_eq_some.2 ⟨hf, hv, rfl⟩, rfl, ?_, rfl, rfl, rfl, ?_, ?_, rfl, rfl, rfl, rfl,
    fun a _ => resetByte_eq cfg a⟩
  · simp [State.initial, State.readV]
  · simp [State.initial]
  · simp [State.initial, Display.pixel]

/-! ### What a step does not read (R22, R25, R26) -/

/-- Ticks leave the returned result alone and do not read it. -/
theorem State.tickN_setResult (n : Nat) (s : State) (r : StepResult) :
    State.tickN n { s with result := r } = { State.tickN n s with result := r } := by
  induction n generalizing s with
  | zero => rfl
  | succ n ih =>
    have htick : State.tickTimers { s with result := r } = { s.tickTimers with result := r } := by
      cases h : s.fault <;> simp [State.tickTimers, h]
    rw [State.tickN, htick, ih, State.tickN]

/-- Taking the input replaces the keys and the draw of the last step (R25). -/
theorem State.beginStep_replaced (s : State) (keys : Keys) (rnd : Byte) (r : StepResult) :
    State.beginStep { s with keys := keys, rnd := rnd, result := r } = { s.beginStep with result := r } :=
  State.tickN_setResult s.nextInput.ticks s.takeInput r

/-- Each branch of the cycle replaces the result of the last step (R26, R65). -/
theorem State.cycle_setResult (s : State) (r : StepResult) : State.cycle { s with result := r } = s.cycle := rfl

/-- Settles O9: the input replaces keys and draw, the cycle the result. -/
theorem stepInputsAndResultNotRetained : Obligations.StepInputsAndResultNotRetained := by
  intro s keys rnd r
  rw [step, State.beginStep_replaced, State.cycle_setResult, ← step]

end Sys2Proof.Machine
end


section
/-! PROOF. The clock speed (R22, R138): constant over steps and ticks, and read by no instruction. -/

namespace Sys2Proof.Machine

/-- The same state with another clock speed. -/
def State.withClock (s : State) (d : Duration) : State := { s with clockSpeed := d }

section
variable (s : State) (d : Duration)

@[simp] theorem State.withClock_cfg : (s.withClock d).cfg = s.cfg := rfl
@[simp] theorem State.withClock_i : (s.withClock d).i = s.i := rfl
@[simp] theorem State.withClock_keys : (s.withClock d).keys = s.keys := rfl
@[simp] theorem State.withClock_readV (r : Reg) : (s.withClock d).readV r = s.readV r := rfl

theorem State.skipIf_withClock (c : Bool) : (s.withClock d).skipIf c = (s.skipIf c).withClock d := by
  cases c <;> rfl

theorem State.writeLogic_withClock (x : Reg) (b : Byte) :
    (s.withClock d).writeLogic x b = (s.writeLogic x b).withClock d := by
  by_cases h : s.cfg.logicVfReset = true <;> simp only [State.writeLogic, State.withClock_cfg, h, if_true] <;> rfl

theorem State.advanceI_withClock (x : Reg) : (s.withClock d).advanceI x = (s.advanceI x).withClock d := by
  by_cases h : s.cfg.loadStoreIIncrement = true <;> simp only [State.advanceI, State.withClock_cfg, h, if_true] <;> rfl

end

/-- No instruction reads the clock speed (R22): with another one it answers the same state but for that. -/
theorem exec_withClock {i : Instr} {s t : State} (d : Duration) (h : exec i s = .next t) :
    exec i (s.withClock d) = .next (t.withClock d) := by
  cases i with
  | nop | cls | jp _ | ldImm _ _ | addImm _ _ | ldReg _ _ | addReg _ _ | sub _ _ | shr _ _ | subn _ _ | shl _ _ | ldI _
  | jpV0 _ | rnd _ _ | ldVxDt _ | ldDtVx _ | ldStVx _ | addI _ | ldF _ => cases h; rfl
  | seImm _ _ | sneImm _ _ | seReg _ _ | sneReg _ _ => cases h; exact congrArg _ (s.skipIf_withClock d _)
  | orReg _ _ | andReg _ _ | xorReg _ _ => cases h; exact congrArg _ (s.writeLogic_withClock d _ _)
  | ret =>
    simp only [exec, execRet] at h
    split at h
    · next hsp => cases h; exact if_pos hsp
    · next hsp => cases h; exact if_neg hsp
  | call nnn =>
    simp only [exec, execCall] at h
    split at h
    · next hsp => cases h; exact if_pos hsp
    · next hsp => cases h; exact if_neg hsp
  | drw x y n =>
    simp only [exec, execDrw, State.withClock_i] at h ⊢
    split at h <;> cases h <;> rfl
  | skp x =>
    simp only [exec, execSkp, State.withClock_cfg, State.withClock_readV] at h ⊢
    split at h
    · cases h; rfl
    · cases h; exact congrArg _ (s.skipIf_withClock d _)
  | sknp x =>
    simp only [exec, execSknp, State.withClock_cfg, State.withClock_readV] at h ⊢
    split at h
    · cases h; rfl
    · cases h; exact congrArg _ (s.skipIf_withClock d _)
  | ldVxK x =>
    simp only [exec, execLdVxK, State.withClock_keys] at h ⊢
    split at h <;> cases h <;> rfl
  | ldB x =>
    simp only [exec, execLdB, State.withClock_i] at h ⊢
    split at h <;> cases h <;> rfl
  | ldMemVx x =>
    simp only [exec, execLdMemVx, State.withClock_i] at h ⊢
    split at h
    · cases h; rfl
    · cases h; exact congrArg _ (State.advanceI_withClock (s.writeBlock _ _) d x)
  | ldVxMem x =>
    simp only [exec, execLdVxMem, State.withClock_i] at h ⊢
    split at h
    · cases h; rfl
    · cases h; exact congrArg _ (State.advanceI_withClock { s with v := _ } d x)

/-- Settles O47: construction sets the clock speed, no outcome of a step changes it, and `exec_withClock`. -/
theorem clockSpeedIsFixedAndUnread : Obligations.ClockSpeedIsFixedAndUnread := by
  refine ⟨fun cfg f sch s h => ?_, fun s t h => ⟨?_, s.tickTimers_clockSpeed⟩, fun i s t d h => exec_withClock d h⟩
  · obtain ⟨hf, -, rfl⟩ := newCore_eq_some.1 h
    exact ⟨rfl, rfl, hf⟩
  · rcases step_cases s with ⟨r, -, h'⟩ | ⟨-, k, w, d, h'⟩ | ⟨-, w, i, u, -, -, h', hc⟩ <;>
      cases h.symm.trans h'
    · exact s.beginStep_clockSpeed
    · exact s.beginStep_clockSpeed
    · exact hc.clockSpeed.trans s.beginStep_clockSpeed

end Sys2Proof.Machine
end


section
/-! PROOF. Which registers an instruction may write, and VF as the flag register (R14). -/

namespace Sys2Proof

/-- Register `r` is one that an instruction that completes may write: its destination, or VF as its flag; `reset` is
`LOGIC_VF_RESET`. -/
def Instr.WritesReg (reset : Bool) (r : Reg) : Instr → Prop
  | .ldImm x _ | .addImm x _ | .ldReg x _ | .rnd x _ | .ldVxDt x | .ldVxK x => r = x
  | .orReg x _ | .andReg x _ | .xorReg x _ => r = x ∨ reset = true ∧ r = Machine.vf
  | .addReg x _ | .sub x _ | .shr x _ | .subn x _ | .shl x _ => r = x ∨ r = Machine.vf
  | .drw _ _ _ => r = Machine.vf
  | .ldVxMem x => r ≤ x
  | _ => False

namespace Machine

open Spec

variable {i : Instr} {s t : State}

/-- A register that is neither destination nor flag keeps its value (R13, R14). -/
theorem exec_readV_same {r : Reg} (h : exec i s = .next t) (ht : t.fault = none)
    (hr : ¬ i.WritesReg s.cfg.logicVfReset r) : t.readV r = s.readV r := by
  by_cases hv : Part.v ∈ i.writes s.cfg.loadStoreIIncrement
  · cases i with
    | ldImm _ _ | addImm _ _ | ldReg _ _ | rnd _ _ | ldVxDt _ =>
      cases h
      exact (State.readV_writeV _ _ _ _).trans (if_neg hr)
    | orReg _ _ | andReg _ _ | xorReg _ _ =>
      cases h
      rw [State.readV_writeLogic, if_neg fun hl => hr (.inr hl), if_neg fun hx => hr (.inl hx)]
    | addReg _ _ | sub _ _ | shr _ _ | subn _ _ | shl _ _ =>
      cases h
      rw [State.readV_writeWithFlag, if_neg fun hf => hr (.inr hf), if_neg fun hx => hr (.inl hx)]
    | ldVxK x =>
      rcases exec_ldVxK_inv h with ⟨k, -, rfl⟩ | ⟨-, rfl⟩
      · exact (State.readV_writeV _ _ _ _).trans (if_neg hr)
      · rfl
    | drw x y n =>
      obtain ⟨c, d, rfl⟩ := exec_drw_inv h ht
      have hr' : r ≠ vf := hr
      simp [hr']
    | ldVxMem x =>
      obtain ⟨-, rfl⟩ := exec_ldVxMem_inv h ht
      rw [State.advanceI_readV]
      refine (loadRegs_getElem s.v 0 _ r).trans (if_neg ?_)
      rw [State.length_readBlock]
      intro hlt
      exact hr (show r.val ≤ x.val by omega)
    | _ => simp [Instr.writes] at hv
  · exact (completes_of_exec h ht).same .v hv r

theorem flagByte_eq (c : Bool) : flagByte c = 0 ∨ flagByte c = 1 := by cases c <;> simp [flagByte]

/-- An instruction whose flag is a condition: the five of R86 to R90, and DRW's collision (R103). -/
def FlagOp (i : Instr) : Prop :=
  (∃ x y, i = .addReg x y) ∨ (∃ x y, i = .sub x y) ∨ (∃ x y, i = .shr x y) ∨ (∃ x y, i = .subn x y) ∨
    (∃ x y, i = .shl x y) ∨ ∃ x y n, i = .drw x y n

/-- A flag-producing instruction leaves a flag in VF, whatever its destination (R14, R79). -/
theorem exec_readV_vf_of_flagOp (h : exec i s = .next t) (ht : t.fault = none) (hi : FlagOp i) :
    ∃ c, t.readV vf = flagByte c := by
  rcases hi with ⟨x, y, rfl⟩ | ⟨x, y, rfl⟩ | ⟨x, y, rfl⟩ | ⟨x, y, rfl⟩ | ⟨x, y, rfl⟩ | ⟨x, y, n, rfl⟩
  case inr.inr.inr.inr.inr =>
    obtain ⟨c, d, rfl⟩ := exec_drw_inv h ht
    exact ⟨c, by simp⟩
  all_goals
    cases h
    exact ⟨_, (State.readV_writeWithFlag _ _ _ _ _).trans (if_pos rfl)⟩

/-- Settles O31: VF changes only where it is a destination or a flag, and a flag is 0 or 1. -/
theorem vfWrittenOnlyAsFlagOrDestination : Obligations.VfWrittenOnlyAsFlagOrDestination := by
  intro i s t _ h ht flagOp logicOp namesVf
  refine ⟨fun hne => ?_, fun hi => ?_, fun hreset hi => ?_⟩
  · have hw : i.WritesReg s.cfg.logicVfReset 15 := by
      by_contra hw
      exact hne (exec_readV_same h ht hw)
    cases i with
    | ldImm x _ | addImm x _ | ldReg x _ | rnd x _ | ldVxDt x | ldVxK x =>
      obtain rfl : 15 = x := hw
      simp [namesVf]
    | orReg x _ | andReg x _ | xorReg x _ =>
      rcases hw with rfl | ⟨hreset, -⟩
      · simp [namesVf]
      · simp [logicOp, hreset]
    | addReg _ _ | sub _ _ | shr _ _ | subn _ _ | shl _ _ | drw _ _ _ => simp [flagOp]
    | ldVxMem x =>
      obtain rfl : x = 15 := Fin.ext (Nat.le_antisymm (by omega) hw)
      simp [namesVf]
    | _ => exact hw.elim
  · obtain ⟨c, hc⟩ := exec_readV_vf_of_flagOp h ht hi
    rw [← vf, hc]
    exact flagByte_eq c
  · rcases hi with ⟨x, y, rfl⟩ | ⟨x, y, rfl⟩ | ⟨x, y, rfl⟩ <;>
      cases h <;> exact (State.readV_writeLogic _ _ _ _).trans (if_pos ⟨hreset, rfl⟩)

end Machine

end Sys2Proof
end

section
/-! PROOF. A store is seen by the next fetch (R49). -/

namespace Sys2Proof.Machine

section
variable {s : State}

/-! ### The two stores where the bounds check passes (R37) -/

/-- Fx33 with its three addresses in memory stores the digits (R96). -/
theorem exec_ldB_of_le {x : Reg} (h : s.i.toNat + 2 ≤ Config.addrMax) :
    exec (.ldB x) s = .next (s.writeBlock s.i.toNat (decimalDigits (s.readV x))) := by
  have hb : firstBad s.i.toNat 3 = none := firstBad_eq_none.2 (.inr (by omega))
  simp only [exec, execLdB, hb]

/-- Fx55 with its addresses in memory stores the registers (R97). -/
theorem exec_ldMemVx_of_le {x : Reg} (h : s.i.toNat + x.val ≤ Config.addrMax) :
    exec (.ldMemVx x) s = .next ((s.writeBlock s.i.toNat (s.v.toList.take (x.val + 1))).advanceI x) := by
  have hb : firstBad s.i.toNat (x.val + 1) = none := firstBad_eq_none.2 (.inr (by omega))
  simp only [exec, execLdMemVx, hb]

/-! ### The bytes they leave -/

/-- A byte inside a stored block reads as the block's byte. -/
theorem State.readByte_writeBlock_add (hm : Memory.risingFrom 0 s.mem = true) (base : Nat) {bytes : List Byte} {k : Nat}
    (hk : k < bytes.length) : (s.writeBlock base bytes).readByte (base + k) = bytes[k] := by
  rw [s.readByte_writeBlock hm, if_pos (by omega), Nat.add_sub_cancel_left, List.getD_eq_getElem _ _ hk]

/-- After Fx55 the byte at `I + k` is `V[k]`, for `k` up to `x`. -/
theorem readByte_after_ldMemVx {t : State} {x : Reg} (hm : Memory.wf s.cfg s.mem = true)
    (hb : s.i.toNat + x.val ≤ Config.addrMax) (h : exec (.ldMemVx x) s = .next t) (k : Reg) (hk : k.val ≤ x.val) :
    t.readByte (s.i.toNat + k.val) = s.readV k := by
  cases h.symm.trans (exec_ldMemVx_of_le hb)
  have hlt : k.val < (s.v.toList.take (x.val + 1)).length := by simp; omega
  rw [State.advanceI_readByte, State.readByte_writeBlock_add (Memory.rising_of_wf hm) _ hlt]
  simp [State.readV]

/-- After Fx33 the byte at `I + k` is decimal digit `k`. -/
theorem readByte_after_ldB {t : State} {x : Reg} (hm : Memory.wf s.cfg s.mem = true)
    (hb : s.i.toNat + 2 ≤ Config.addrMax) (h : exec (.ldB x) s = .next t) {k : Nat}
    (hk : k < 3) : t.readByte (s.i.toNat + k) = (decimalDigits (s.readV x))[k]'hk := by
  cases h.symm.trans (exec_ldB_of_le hb)
  exact State.readByte_writeBlock_add (Memory.rising_of_wf hm) _ hk

end

/-- The first byte of an instruction word is its high byte (R43). -/
theorem wordOfBytes_toNat (hi lo : Byte) : (wordOfBytes hi lo).toNat = hi.toNat * 256 + lo.toNat := by
  rw [wordOfBytes, BitVec.toNat_append, ← Nat.shiftLeft_add_eq_or_of_lt lo.isLt, Nat.shiftLeft_eq]

/-- Settles O37: neither store moves `pc`, so the fetch reads at `I + k` what the store left there. -/
theorem nextFetchSeesTheStore : Obligations.NextFetchSeesTheStore := by
  intro x s t hm
  refine ⟨fun h hb k hk hpc => ?_, fun h hb hpc => ?_⟩
  · have htpc : t.pc = s.pc := by
      cases h.symm.trans (exec_ldMemVx_of_le hb)
      simp
    have hhi := readByte_after_ldMemVx hm hb h k (by omega)
    have hlo := readByte_after_ldMemVx hm hb h ⟨k.val + 1, by omega⟩ hk
    rw [State.fetchWord, htpc, hpc, Nat.add_assoc, hhi, hlo, wordOfBytes]
  · have htpc : t.pc = s.pc := by
      cases h.symm.trans (exec_ldB_of_le hb)
      rfl
    have hhi : t.readByte s.i.toNat = BitVec.ofNat 8 ((s.readV x).toNat / 100) :=
      readByte_after_ldB hm hb h (k := 0) (by decide)
    have hlo : t.readByte (s.i.toNat + 1) = BitVec.ofNat 8 ((s.readV x).toNat / 10 % 10) :=
      readByte_after_ldB hm hb h (k := 1) (by decide)
    rw [State.fetchWord, htpc, hpc, hhi, hlo, wordOfBytes_toNat, BitVec.toNat_ofNat, BitVec.toNat_ofNat]
    omega

end Sys2Proof.Machine
end

section
/-! PROOF. The decoder and the encoder are inverse to each other (R52, R54 to R56). -/

namespace Sys2Proof.Laws

open Sys2Proof

/-! ### A word is put together again from its fields, in each format (R52, R54) -/

/-- Adjacent fields, put together, are the field that spans both. -/
theorem extract_append_extract (w : Word) (lo m n : Nat) :
    w.extractLsb' (lo + n) m ++ w.extractLsb' lo n = w.extractLsb' lo (m + n) :=
  BitVec.extractLsb'_append_extractLsb'_eq_extractLsb' rfl

theorem encNNN_fields (w : Word) : encNNN (opOf w) (nnnOf w) = w :=
  (extract_append_extract w 0 4 12).trans (extract_all w)

/-- The first two nibbles of a word are its high byte. -/
theorem op_append_x (w : Word) : (opOf w ++ nib (xOf w) : Byte) = w.extractLsb' 8 8 :=
  extract_append_extract w 8 4 4

theorem encXKK_fields (w : Word) : encXKK (opOf w) (xOf w) (kkOf w) = w := by
  rw [encXKK, op_append_x]
  exact wordOfBytes_bytes w

theorem encXYN_fields (w : Word) : encXYN (opOf w) (xOf w) (yOf w) (nOf w) = w := by
  rw [encXYN, op_append_x]
  exact (congrArg (· ++ nOf w) (extract_append_extract w 4 8 4)).trans
    ((extract_append_extract w 0 12 4).trans (extract_all w))

section
variable {w : Word} {op : Nibble}

theorem encNNN_of_opOf (h : opOf w = op) : encNNN op (nnnOf w) = w := h ▸ encNNN_fields w

theorem encXKK_of_opOf (h : opOf w = op) : encXKK op (xOf w) (kkOf w) = w := h ▸ encXKK_fields w

theorem encXYN_of_opOf (h : opOf w = op) : encXYN op (xOf w) (yOf w) (nOf w) = w := h ▸ encXYN_fields w

end

/-! ### Decoding an encoded instruction -/

/-- Each arm of the decode map reads back the fields that the encoder's format wrote (R54). -/
theorem decodeAny_encode (i : Instr) : decodeAny (encode i) = .instr i := by
  cases i with
  | nop | cls | ret => rfl
  | jp _ | call _ | ldI _ | jpV0 _ | seImm _ _ | sneImm _ _ | ldImm _ _ | addImm _ _ | rnd _ _ | drw _ _ _ =>
    simp [encode, decodeAny]
  | seReg _ _ | sneReg _ _ => simp [encode, decodeAny, decodeCompare]
  | ldReg _ _ | orReg _ _ | andReg _ _ | xorReg _ _ | addReg _ _ | sub _ _ | shr _ _ | subn _ _ | shl _ _ =>
    simp [encode, decodeAny, decodeAlu]
  | skp _ | sknp _ => simp [encode, decodeAny, decodeKey]
  | _ => simp [encode, decodeAny, decodeMisc]

theorem encode_of_decodeAlu {x y : Reg} {n : Nibble} {i : Instr} (h : decodeAlu x y n = .instr i) :
    encode i = encXYN 0x8#4 x y n := by
  unfold decodeAlu at h
  split at h <;> cases h <;> rfl

theorem encode_of_decodeKey {x : Reg} {kk : Byte} {i : Instr} (h : decodeKey x kk = .instr i) :
    encode i = encXKK 0xE#4 x kk := by
  unfold decodeKey at h
  split at h <;> cases h <;> rfl

theorem encode_of_decodeMisc {x : Reg} {kk : Byte} {i : Instr} (h : decodeMisc x kk = .instr i) :
    encode i = encXKK 0xF#4 x kk := by
  unfold decodeMisc at h
  split at h <;> cases h <;> rfl

theorem encode_of_decodeZero {w : Word} {i : Instr} (h : decodeZero w = .instr i) : encode i = w := by
  unfold decodeZero at h
  split at h
  · next hw => cases h; exact hw.symm
  · split at h
    · next hw => cases h; exact hw.symm
    · split at h
      · next hw => cases h; exact hw.symm
      · cases h

theorem decodeCompare_eq_instr {n : Nibble} {i j : Instr} : decodeCompare n i = .instr j ↔ n = 0x0#4 ∧ i = j := by
  unfold decodeCompare
  split <;> simp [*]

/-- A word that decodes is the encoding of its instruction: each arm's fields put the word together again. -/
theorem encode_of_decodeAny {w : Word} {i : Instr} (h : decodeAny w = .instr i) : encode i = w := by
  unfold decodeAny at h
  split at h
  case h_1 => exact encode_of_decodeZero h
  case h_2 hop | h_3 hop | h_11 hop | h_12 hop => cases h; exact encNNN_of_opOf hop
  case h_4 hop | h_5 hop | h_7 hop | h_8 hop | h_13 hop => cases h; exact encXKK_of_opOf hop
  case h_6 hop | h_10 hop =>
    obtain ⟨hn, rfl⟩ := decodeCompare_eq_instr.1 h
    have hw := encXYN_of_opOf hop
    rw [hn] at hw
    exact hw
  case h_9 hop => exact (encode_of_decodeAlu h).trans (encXYN_of_opOf hop)
  case h_14 hop => cases h; exact encXYN_of_opOf hop
  case h_15 hop => exact (encode_of_decodeKey h).trans (encXKK_of_opOf hop)
  case h_16 =>
    have hop : opOf w = 0xF#4 := by
      simp only [imp_false] at *
      bv_omega
    exact (encode_of_decodeMisc h).trans (encXKK_of_opOf hop)

/-- A word that has a row is the encoding of an instruction. -/
theorem decodeAny_cases (w : Word) : decodeAny w = .unrecognized ∨ ∃ i, encode i = w := by
  cases h : decodeAny w with
  | unrecognized => exact .inl rfl
  | instr i => exact .inr ⟨i, encode_of_decodeAny h⟩

/-! ### The gate (R59) -/

theorem decode_encode (g : Bool) (i : Instr) :
    decode g (encode i) = if i.wellFormed g then .instr i else .unrecognized := by
  rw [decode, decodeAny_encode, gate]

theorem decode_of_decodeAny_eq_unrecognized {w : Word} (h : decodeAny w = .unrecognized) (g : Bool) :
    decode g w = .unrecognized := by
  rw [decode, h, gate]

theorem decode_eq_instr {g : Bool} {w : Word} {i : Instr} :
    decode g w = .instr i ↔ encode i = w ∧ i.wellFormed g = true := by
  constructor
  · intro h
    rcases decodeAny_cases w with hw | ⟨j, rfl⟩
    · cases (decode_of_decodeAny_eq_unrecognized hw g).symm.trans h
    · rw [decode_encode] at h
      split at h
      · next hj => cases h; exact ⟨rfl, hj⟩
      · cases h
  · rintro ⟨rfl, hi⟩
    rw [decode_encode, if_pos hi]

/-- Settles O2: the gate lets a well-formed instruction through, and the decode map inverts the encoder. -/
theorem decodeOfEncode : Obligations.DecodeOfEncode := by
  intro g i hi
  rw [decode_encode, if_pos hi]

/-- Settles O3: a word that decodes is the encoding of what it decodes to. -/
theorem encodeOfDecode : Obligations.EncodeOfDecode := by
  intro g w i h
  exact decode_eq_instr.1 h

end Sys2Proof.Laws
end

section
/-! PROOF. The unrecognized words of R57, and the gate of R59. -/

namespace Sys2Proof.Laws

open Sys2Proof

/-! ### The fields of R52 as numbers -/

theorem opOf_toNat (w : Word) : (opOf w).toNat = w.toNat / 4096 := by
  simp only [opOf, BitVec.extractLsb'_toNat, Nat.shiftRight_eq_div_pow]
  omega

theorem nOf_toNat (w : Word) : (nOf w).toNat = w.toNat % 16 := by
  simp [nOf]

theorem kkOf_toNat (w : Word) : (kkOf w).toNat = w.toNat % 256 := by
  simp [kkOf]

theorem nnnOf_toNat (w : Word) : (nnnOf w).toNat = w.toNat % 4096 := by
  simp [nnnOf]

/-! ### R57's list, arm by arm -/

/-- The words that no row of R56 has, by their fields as numbers (R57). -/
def Unmapped (op n kk nnn : Nat) : Prop :=
  (op = 0 ∧ nnn ≠ 0x000 ∧ nnn ≠ 0x0E0 ∧ nnn ≠ 0x0EE) ∨
  (op = 5 ∧ n ≠ 0) ∨
  (op = 8 ∧ (n = 8 ∨ n = 9 ∨ n = 0xA ∨ n = 0xB ∨ n = 0xC ∨ n = 0xD ∨ n = 0xF)) ∨
  (op = 9 ∧ n ≠ 0) ∨
  (op = 0xE ∧ kk ≠ 0x9E ∧ kk ≠ 0xA1) ∨
  (op = 0xF ∧ kk ≠ 0x07 ∧ kk ≠ 0x0A ∧ kk ≠ 0x15 ∧ kk ≠ 0x18 ∧ kk ≠ 0x1E ∧ kk ≠ 0x29 ∧ kk ≠ 0x33 ∧
    kk ≠ 0x55 ∧ kk ≠ 0x65)

/-- The words on the seven gated rows, by their fields as numbers (R57, R59). -/
def Gated (op n kk : Nat) : Prop :=
  (op = 5 ∧ n = 0) ∨ (op = 8 ∧ n = 0) ∨ (op = 8 ∧ n = 7) ∨ (op = 9 ∧ n = 0) ∨
    op = 0xB ∨ op = 0xC ∨ (op = 0xF ∧ kk = 0x0A)

theorem decodeZero_eq_unrecognized {w : Word} :
    decodeZero w = .unrecognized ↔ w.toNat ≠ 0x000 ∧ w.toNat ≠ 0x0E0 ∧ w.toNat ≠ 0x0EE := by
  unfold decodeZero
  split
  · next h => simp [h]
  · split
    · next h => simp [h]
    · split
      · next h => simp [h]
      · simp only [true_iff]
        bv_omega

theorem decodeCompare_eq_unrecognized {n : Nibble} {i : Instr} :
    decodeCompare n i = .unrecognized ↔ n.toNat ≠ 0 := by
  unfold decodeCompare
  split
  · next h => simp [h]
  · simp only [true_iff]
    bv_omega

theorem decodeAlu_eq_unrecognized {x y : Reg} {n : Nibble} : decodeAlu x y n = .unrecognized ↔
    n.toNat = 8 ∨ n.toNat = 9 ∨ n.toNat = 0xA ∨ n.toNat = 0xB ∨ n.toNat = 0xC ∨ n.toNat = 0xD ∨ n.toNat = 0xF := by
  unfold decodeAlu
  split
  case h_10 =>
    simp only [imp_false, true_iff] at *
    bv_omega
  all_goals simp

theorem decodeKey_eq_unrecognized {x : Reg} {kk : Byte} :
    decodeKey x kk = .unrecognized ↔ kk.toNat ≠ 0x9E ∧ kk.toNat ≠ 0xA1 := by
  unfold decodeKey
  split
  case h_3 =>
    simp only [imp_false, true_iff] at *
    bv_omega
  all_goals simp

theorem decodeMisc_eq_unrecognized {x : Reg} {kk : Byte} : decodeMisc x kk = .unrecognized ↔
    kk.toNat ≠ 0x07 ∧ kk.toNat ≠ 0x0A ∧ kk.toNat ≠ 0x15 ∧ kk.toNat ≠ 0x18 ∧ kk.toNat ≠ 0x1E ∧ kk.toNat ≠ 0x29 ∧
      kk.toNat ≠ 0x33 ∧ kk.toNat ≠ 0x55 ∧ kk.toNat ≠ 0x65 := by
  unfold decodeMisc
  split
  case h_10 =>
    simp only [imp_false, true_iff] at *
    bv_omega
  all_goals simp

/-- The decode map has no row for exactly the words of R57's first six entries. -/
theorem decodeAny_eq_unrecognized {w : Word} : decodeAny w = .unrecognized ↔
    Unmapped (opOf w).toNat (nOf w).toNat (kkOf w).toNat (nnnOf w).toNat := by
  unfold decodeAny
  split
  case h_1 hop =>
    have hw : w.toNat = (nnnOf w).toNat := by
      have hzero : w.toNat / 4096 = 0 := by rw [← opOf_toNat, hop]; rfl
      rw [nnnOf_toNat]
      omega
    simp [Unmapped, hop, decodeZero_eq_unrecognized, hw]
  case h_6 hop | h_10 hop => simp [Unmapped, hop, decodeCompare_eq_unrecognized]
  case h_9 hop => simp [Unmapped, hop, decodeAlu_eq_unrecognized]
  case h_15 hop => simp [Unmapped, hop, decodeKey_eq_unrecognized]
  case h_16 =>
    have hop : opOf w = 0xF#4 := by
      simp only [imp_false] at *
      bv_omega
    simp [Unmapped, hop, decodeMisc_eq_unrecognized]
  case h_2 hop | h_3 hop | h_4 hop | h_5 hop | h_7 hop | h_8 hop | h_11 hop | h_12 hop | h_13 hop | h_14 hop =>
    simp [Unmapped, hop]

/-- The gated rows are those of the gated instructions. -/
theorem gated_iff_isGk (i : Instr) :
    Gated (opOf (encode i)).toNat (nOf (encode i)).toNat (kkOf (encode i)).toNat ↔ i.isGk = true := by
  cases i with
  | nop | cls | ret => unfold Gated; decide
  | _ => simp [encode, Gated, Instr.isGk]

/-- The unrecognized words: those without a row, and with the gate shut those on a gated row (R57, R59). -/
theorem decode_eq_unrecognized {g : Bool} {w : Word} : decode g w = .unrecognized ↔
    Unmapped (opOf w).toNat (nOf w).toNat (kkOf w).toNat (nnnOf w).toNat ∨
      g = false ∧ Gated (opOf w).toNat (nOf w).toNat (kkOf w).toNat := by
  rw [← decodeAny_eq_unrecognized]
  rcases decodeAny_cases w with hw | ⟨i, rfl⟩
  · simp [hw, decode_of_decodeAny_eq_unrecognized]
  · simp [decodeAny_encode, decode_encode, gated_iff_isGk, Instr.wellFormed]

/-! ### The gate -/

/-- Settles O1: the decoder run on the twelve words, with the gate open and shut. -/
theorem wordsFromTheTableDecode : Obligations.WordsFromTheTableDecode := by
  unfold Obligations.WordsFromTheTableDecode Spec.Encodes
  decide

/-- The seven gated instructions (R59). -/
theorem isGk_iff (i : Instr) : i.isGk = true ↔
    (∃ x y, i = .seReg x y) ∨ (∃ x y, i = .ldReg x y) ∨ (∃ x y, i = .subn x y) ∨ (∃ x y, i = .sneReg x y) ∨
    (∃ nnn, i = .jpV0 nnn) ∨ (∃ x kk, i = .rnd x kk) ∨ (∃ x, i = .ldVxK x) := by
  cases i <;> simp [Instr.isGk]

/-- Settles O5: the gate acts on a decoded instruction only, and with it open every instruction is well-formed. -/
theorem gkGateRemovesSevenRows : Obligations.GkGateRemovesSevenRows := by
  refine ⟨rfl, isGk_iff, fun i => ?_, fun w i h => ?_, fun w h => ?_⟩
  · exact decodeOfEncode true i rfl
  · obtain ⟨rfl, -⟩ := decode_eq_instr.1 h
    rw [decode_encode]
    cases hi : i.isGk <;> simp [Instr.wellFormed, hi]
  · rcases decodeAny_cases w with hw | ⟨i, rfl⟩
    · exact decode_of_decodeAny_eq_unrecognized hw false
    · cases h.symm.trans (decodeOfEncode true i rfl)

end Sys2Proof.Laws
end

section
/-! PROOF. The decoder follows the opcode table (R55, R56). -/

namespace Sys2Proof.Laws

open Sys2Proof

/-! ### The rows -/

/-- The lemmas of `RowMatch` for all instructions at once. -/
theorem rowMatch (i : Instr) : RowMatch.Statement i := by
  cases i with
  | nop => exact RowMatch.nop
  | cls => exact RowMatch.cls
  | ret => exact RowMatch.ret
  | jp nnn => exact RowMatch.jp nnn
  | call nnn => exact RowMatch.call nnn
  | seImm x kk => exact RowMatch.seImm x kk
  | sneImm x kk => exact RowMatch.sneImm x kk
  | seReg x y => exact RowMatch.seReg x y
  | ldImm x kk => exact RowMatch.ldImm x kk
  | addImm x kk => exact RowMatch.addImm x kk
  | ldReg x y => exact RowMatch.ldReg x y
  | orReg x y => exact RowMatch.orReg x y
  | andReg x y => exact RowMatch.andReg x y
  | xorReg x y => exact RowMatch.xorReg x y
  | addReg x y => exact RowMatch.addReg x y
  | sub x y => exact RowMatch.sub x y
  | shr x y => exact RowMatch.shr x y
  | subn x y => exact RowMatch.subn x y
  | shl x y => exact RowMatch.shl x y
  | sneReg x y => exact RowMatch.sneReg x y
  | ldI nnn => exact RowMatch.ldI nnn
  | jpV0 nnn => exact RowMatch.jpV0 nnn
  | rnd x kk => exact RowMatch.rnd x kk
  | drw x y n => exact RowMatch.drw x y n
  | skp x => exact RowMatch.skp x
  | sknp x => exact RowMatch.sknp x
  | ldVxDt x => exact RowMatch.ldVxDt x
  | ldVxK x => exact RowMatch.ldVxK x
  | ldDtVx x => exact RowMatch.ldDtVx x
  | ldStVx x => exact RowMatch.ldStVx x
  | addI x => exact RowMatch.addI x
  | ldF x => exact RowMatch.ldF x
  | ldB x => exact RowMatch.ldB x
  | ldMemVx x => exact RowMatch.ldMemVx x
  | ldVxMem x => exact RowMatch.ldVxMem x

theorem row_mem_opcodeTable (i : Instr) : i.row ∈ opcodeTable := by
  cases i <;> simp [opcodeTable, tableInstrs, Instr.row]

/-- The patterns of two different rows differ in a bit that both masks keep. -/
theorem rows_apart : ∀ r₁ ∈ opcodeTable, ∀ r₂ ∈ opcodeTable,
    r₁.pattern &&& r₂.mask = r₂.pattern &&& r₁.mask → r₁ = r₂ := by decide

theorem matches_iff {r : TableRow} {w : Word} : r.matches w = true ↔ w &&& r.mask = r.pattern := decide_eq_true_iff

/-- A word on two rows makes their patterns agree under both masks. -/
theorem row_eq_of_matches {r₁ r₂ : TableRow} (h₁ : r₁ ∈ opcodeTable) (h₂ : r₂ ∈ opcodeTable) {w : Word}
    (hw₁ : r₁.matches w = true) (hw₂ : r₂.matches w = true) : r₁ = r₂ := by
  apply rows_apart r₁ h₁ r₂ h₂
  rw [← matches_iff.1 hw₁, ← matches_iff.1 hw₂, BitVec.and_assoc, BitVec.and_assoc, BitVec.and_comm r₁.mask]

/-! ### What each mask keeps of a word -/

section
variable {w w' : Word}

theorem eq_of_masked (h : w &&& 0xFFFF#16 = w' &&& 0xFFFF#16) : w = w' :=
  BitVec.and_allOnes.symm.trans (h.trans BitVec.and_allOnes)

theorem opOf_eq_of_masked (h : w &&& 0xF000#16 = w' &&& 0xF000#16) : opOf w = opOf w' := by
  rw [← encNNN_fields w, ← encNNN_fields w', encNNN_masked, encNNN_masked] at h
  simpa using congrArg opOf h

theorem kkOf_eq_of_masked (h : w &&& 0xF0FF#16 = w' &&& 0xF0FF#16) : opOf w = opOf w' ∧ kkOf w = kkOf w' := by
  rw [← encXKK_fields w, ← encXKK_fields w', encX_masked, encX_masked] at h
  exact ⟨by simpa using congrArg opOf h, by simpa using congrArg kkOf h⟩

theorem nOf_eq_of_masked (h : w &&& 0xF00F#16 = w' &&& 0xF00F#16) : opOf w = opOf w' ∧ nOf w = nOf w' := by
  rw [← encXYN_fields w, ← encXYN_fields w', encXY_masked, encXY_masked] at h
  exact ⟨by simpa using congrArg opOf h, by simpa using congrArg nOf h⟩

end

/-! ### A word on a row decodes -/

/-- A word on the row of `i` has the fields of `encode i` that the row's mask keeps; those choose the decoder's arm. -/
theorem exists_encode_of_matches {i : Instr} {w : Word} (h : i.row.matches w = true) : ∃ j, encode j = w := by
  have hmask : w &&& i.row.mask = encode i &&& i.row.mask :=
    (matches_iff.1 h).trans (matches_iff.1 (rowMatch i).1).symm
  refine (decodeAny_cases w).resolve_left ?_
  cases i with
  | nop | cls | ret =>
    rw [eq_of_masked hmask, decodeAny_encode]
    exact Decoded.noConfusion
  | seReg | ldReg | orReg | andReg | xorReg | addReg | sub | shr | subn | shl | sneReg =>
    obtain ⟨hop, hn⟩ := nOf_eq_of_masked hmask
    simp only [encode, opOf_encXYN, nOf_encXYN] at hop hn
    simp [decodeAny, decodeCompare, decodeAlu, hop, hn]
  | skp | sknp | ldVxDt | ldVxK | ldDtVx | ldStVx | addI | ldF | ldB | ldMemVx | ldVxMem =>
    obtain ⟨hop, hkk⟩ := kkOf_eq_of_masked hmask
    simp only [encode, opOf_encXKK, kkOf_encXKK] at hop hkk
    simp [decodeAny, decodeKey, decodeMisc, hop, hkk]
  | jp | call | seImm | sneImm | ldImm | addImm | ldI | jpV0 | rnd | drw =>
    have hop := opOf_eq_of_masked hmask
    simp only [encode, opOf_encNNN, opOf_encXKK, opOf_encXYN] at hop
    simp [decodeAny, hop]

/-- A row is admitted exactly when its instruction is well-formed (R59). -/
theorem admitted_eq_wellFormed (g : Bool) (i : Instr) : (g || !i.row.gk) = i.wellFormed g := by
  rw [(rowMatch i).2, Instr.wellFormed]

/-- Settles O6: a decoded word is on its instruction's row, and no other row matches it. -/
theorem decoderFollowsTheTable : Obligations.DecoderFollowsTheTable := by
  refine ⟨rfl, fun r₁ h₁ r₂ h₂ w => row_eq_of_matches h₁ h₂, fun g w i h => ?_, fun g w r hr hw hg => ?_⟩
  · obtain ⟨rfl, hi⟩ := decode_eq_instr.1 h
    exact ⟨row_mem_opcodeTable i, (rowMatch i).1, (admitted_eq_wellFormed g i).trans hi⟩
  · obtain ⟨j, -, rfl⟩ := List.mem_map.1 hr
    obtain ⟨i, rfl⟩ := exists_encode_of_matches hw
    have hrow : i.row = j.row := row_eq_of_matches (row_mem_opcodeTable i) hr (rowMatch i).1 hw
    rw [← hrow, admitted_eq_wellFormed] at hg
    exact ⟨i, decode_eq_instr.2 ⟨rfl, hg⟩, hrow⟩

end Sys2Proof.Laws
end

section
/-! PROOF. The step: what the host brings, the fetch and its checks, and the result (R62 to R66). -/

namespace Sys2Proof.Machine

open Spec

/-! ### The branches of the cycle (R63) -/

section
variable {s : State} {w : Word}

theorem State.takeFault_keeps (s : State) (k : FaultKind) (w : Option Word) (d : Word) :
    Keeps [.fault, .result] s (s.takeFault k w d) :=
  ⟨fun p hp => by cases p <;> simp_all [Part.Same], fun _ => rfl⟩

theorem cycle_of_fault {r : FaultRecord} (hf : s.fault = some r) : s.cycle = .next { s with result := .faulted r } := by
  simp only [State.cycle, hf]

theorem cycle_of_fetchFault {k : FaultKind} (hf : s.fault = none) (hk : s.fetchFault = some k) :
    s.cycle = .next (s.takeFault k none s.pc) := by
  simp only [State.cycle, hf, hk]

theorem fetchFault_of_fetches (h : Fetches s w) : s.fetchFault = none := by
  obtain ⟨-, hpc, heven, -⟩ := h
  exact s.fetchFault_eq_none.2 ⟨hpc, heven⟩

theorem fetchWord_of_fetches (h : Fetches s w) : s.fetchWord = w := by
  obtain ⟨-, -, -, hw⟩ := h
  exact hw

theorem cycle_of_unrecognized (h : Fetches s w) (hd : decode s.cfg.admitGk w = .unrecognized) :
    s.cycle = .next (s.takeFault .unrecognizedInstruction (some w) w) := by
  simp only [State.cycle, h.1, fetchFault_of_fetches h, fetchWord_of_fetches h, hd]

theorem cycle_of_instr {i : Instr} (h : Fetches s w) (hd : decode s.cfg.admitGk w = .instr i) :
    s.cycle = exec i s.fetched := by
  simp only [State.cycle, h.1, fetchFault_of_fetches h, fetchWord_of_fetches h, hd]

end

/-- Settles O7: the cycle runs the decoded instruction, and the host's input leaves `pc` alone. -/
theorem stepRunsDecodedInstruction : Obligations.StepRunsDecodedInstruction := by
  intro s w i h hd
  rw [step, cycle_of_instr h (by simpa using hd), State.fetched, State.beginStep_pc]

/-- Settles O4: R57's list is that of `Laws.decode_eq_unrecognized`, and the cycle takes the decode fault. -/
theorem unrecognizedWordsExactly : Obligations.UnrecognizedWordsExactly := by
  refine ⟨fun g w => ?_, fun s w h hd => ?_⟩
  · rw [Laws.decode_eq_unrecognized, Laws.opOf_toNat, Laws.nOf_toNat, Laws.kkOf_toNat, Laws.nnnOf_toNat]
    simp only [Laws.Unmapped, Laws.Gated, or_assoc]
  · refine ⟨_, cycle_of_unrecognized h (by simpa using hd), ?_, ?_, (State.takeFault_keeps _ _ _ _).1⟩
    · rw [State.takeFault_fault, State.beginStep_pc]
    · rw [State.takeFault_result, State.beginStep_pc]

/-! ### What the host brings (R25, R64, R135) -/

section
variable (s : State)

theorem countDown_toNat (b : Byte) : (countDown b).toNat = b.toNat - 1 := by
  unfold countDown
  split
  · next h => simp [h]
  · bv_omega

/-- Ticks count both timers of an unfaulted core down, stopping at 0 (R120). -/
theorem State.tickN_timers {s : State} (hf : s.fault = none) (n : Nat) :
    (State.tickN n s).dt.toNat = s.dt.toNat - n ∧ (State.tickN n s).st.toNat = s.st.toNat - n := by
  induction n generalizing s with
  | zero => exact ⟨rfl, rfl⟩
  | succ n ih =>
    obtain ⟨hdt, hst⟩ := ih (s := s.tickTimers) (by simpa using hf)
    simp only [State.tickTimers_dt, State.tickTimers_st, hf, if_true, countDown_toNat] at hdt hst
    rw [State.tickN]
    omega

theorem State.tickTimers_of_fault {s : State} {r : FaultRecord} (hf : s.fault = some r) : s.tickTimers = s := by
  rw [State.tickTimers, hf]

theorem State.tickN_of_fault {s : State} {r : FaultRecord} (hf : s.fault = some r) (n : Nat) : State.tickN n s = s := by
  induction n with
  | zero => rfl
  | succ n ih => rw [State.tickN, State.tickTimers_of_fault hf, ih]

theorem State.beginStep_of_fault {s : State} {r : FaultRecord} (hf : s.fault = some r) : s.beginStep = s.takeInput :=
  State.tickN_of_fault (s := s.takeInput) hf _

theorem State.takeInput_keeps : Keeps [.ports] s s.takeInput :=
  ⟨fun p hp => by cases p <;> simp_all [Part.Same], fun _ => rfl⟩

theorem State.beginStep_keeps : Keeps [.dt, .st, .ports] s s.beginStep :=
  ⟨fun p hp => by cases p <;> simp_all [Part.Same], fun _ => s.beginStep_mem⟩

end

/-- Settles O8: taking the input sets the ports, and the ticks move the timers of an unfaulted core only. -/
theorem hostInputBeforeStep : Obligations.HostInputBeforeStep := by
  intro s
  refine ⟨fun inp rest h => ?_, fun h => ?_, s.beginStep_keys, s.beginStep_rnd, s.beginStep_lifecycle,
    fun hf => State.tickN_timers (s := s.takeInput) hf _, fun hf => ?_, s.beginStep_keeps.1⟩
  · simp [State.nextInput, h]
  · simp [State.nextInput, h, Config.freeInput]
  · obtain ⟨r, hr⟩ := Option.ne_none_iff_exists'.1 hf
    rw [State.beginStep_of_fault hr]
    exact ⟨rfl, rfl⟩

/-! ### A faulted core (R66) -/

theorem State.setResult_keeps (s : State) (r : StepResult) : Keeps [.result] s { s with result := r } :=
  ⟨fun p hp => by cases p <;> simp_all [Part.Same, State.readV, State.readByte], fun _ => rfl⟩

/-- Settles O11: on a faulted core ticks do nothing, so only the ports and the result change. -/
theorem faultedCoreAbsorbs : Obligations.FaultedCoreAbsorbs := by
  intro s r hf
  have hstep : step s = .next { s.takeInput with result := .faulted r } := by
    rw [step, State.beginStep_of_fault hf]
    exact cycle_of_fault hf
  exact ⟨State.tickTimers_of_fault hf, _, hstep, hf, rfl,
    ((s.takeInput_keeps.mono (by simp)).trans ((State.setResult_keeps _ _).mono (by simp))).1⟩

/-! ### The fetch checks (R62) -/

theorem State.beginStep_fetchFault (s : State) : s.beginStep.fetchFault = s.fetchFault := by
  simp [State.fetchFault]

theorem State.fetchFault_of_outOfBounds {s : State} (hpc : 0xFFF < s.pc.toNat + 1) :
    s.fetchFault = some .fetchOutOfBounds := if_pos hpc

theorem State.fetchFault_of_odd {s : State} (hpc : s.pc.toNat + 1 ≤ 0xFFF) (hstrict : s.cfg.fetchAlignment = .strict)
    (hodd : s.pc.toNat % 2 = 1) : s.fetchFault = some .misalignedFetch :=
  (if_neg (Nat.not_lt.2 hpc)).trans (if_pos ⟨hstrict, hodd⟩)

/-- A step whose fetch fails its checks takes that fault and changes nothing else (R62, R117). -/
theorem step_of_fetchFault {s : State} {k : FaultKind} (hf : s.fault = none) (hk : s.fetchFault = some k) :
    ∃ t, step s = .next t ∧ t.fault = some { kind := k, addr := s.pc, word := none, detail := s.pc } ∧
      OnlyChanges [.fault, .result] s.beginStep t := by
  refine ⟨_, cycle_of_fetchFault (s.beginStep_fault.trans hf) (s.beginStep_fetchFault.trans hk), ?_,
    (State.takeFault_keeps _ _ _ _).1⟩
  rw [State.takeFault_fault, State.beginStep_pc]

/-- The kind of fault that an instruction's own check raises (R114). -/
def faultKind : Instr → Option FaultKind
  | .call _ => some .stackOverflow
  | .ret => some .stackUnderflow
  | .drw _ _ _ | .ldB _ | .ldMemVx _ | .ldVxMem _ => some .dataOutOfBounds
  | .skp _ | .sknp _ => some .keyOutOfRange
  | _ => none

/-- An instruction faults only by its own check. -/
theorem faultKind_of_exec {i : Instr} {s t : State} {r : FaultRecord} (hs : s.fault = none) (h : exec i s = .next t)
    (hr : t.fault = some r) : faultKind i = some r.kind := by
  cases i with
  | ret | call _ | drw _ _ _ | skp _ | sknp _ | ldB _ | ldMemVx _ | ldVxMem _ =>
    simp only [exec, execRet, execCall, execDrw, execSkp, execSknp, execLdB, execLdMemVx, execLdVxMem] at h
    split at h
    · cases h; cases hr; rfl
    · cases h; simp [hs] at hr
  | ldVxK x =>
    rcases exec_ldVxK_inv h with ⟨k, -, rfl⟩ | ⟨-, rfl⟩ <;> simp [hs] at hr
  | _ => cases h; simp [hs] at hr

theorem faultKind_ne_fetch {i : Instr} {k : FaultKind} (h : faultKind i = some k) :
    k ≠ .fetchOutOfBounds ∧ k ≠ .misalignedFetch := by
  cases i <;> cases h <;> decide

/-- Past the fetch checks a step faults by the decoder or by the instruction's own check (R118). -/
theorem kind_of_fault_of_fetchFault_eq_none {s t : State} {r : FaultRecord} (hf : s.fault = none)
    (hk : s.fetchFault = none) (h : step s = .next t) (hr : t.fault = some r) :
    r.kind = .unrecognizedInstruction ∨ ∃ i, faultKind i = some r.kind := by
  have hf' : s.beginStep.fault = none := s.beginStep_fault.trans hf
  have hw := s.beginStep.fetches_fetchWord hf' (s.beginStep_fetchFault.trans hk)
  rw [step] at h
  cases hd : decode s.beginStep.cfg.admitGk s.beginStep.fetchWord with
  | unrecognized =>
    cases (cycle_of_unrecognized hw hd).symm.trans h
    cases hr
    exact .inl rfl
  | instr i =>
    have hexec : exec i s.beginStep.fetched = .next t := (cycle_of_instr hw hd).symm.trans h
    exact .inr ⟨i, faultKind_of_exec (s := s.beginStep.fetched) hf' hexec hr⟩

/-- Settles O10: each check that fails gives its fault, and past both no other fault is of a fetch kind. -/
theorem fetchChecksInOrder : Obligations.FetchChecksInOrder := by
  intro s hf
  refine ⟨fun hpc => ?_, fun hpc hstrict hodd => ?_, fun hpc heven t r h hr => ?_⟩
  · exact step_of_fetchFault hf (State.fetchFault_of_outOfBounds hpc)
  · exact step_of_fetchFault hf (State.fetchFault_of_odd hpc hstrict hodd)
  · rcases kind_of_fault_of_fetchFault_eq_none hf (s.fetchFault_eq_none.2 ⟨hpc, heven⟩) h hr with hk | ⟨i, hk⟩
    · simp [hk]
    · exact faultKind_ne_fetch hk

/-! ### What a step returns (R65) -/

theorem of_result_mem_writes {i : Instr} {inc : Bool} (h : Part.result ∈ i.writes inc) : Draws i := by
  cases i <;> simp_all [Instr.writes, Draws]

/-- A drawing instruction that completes returns a snapshot of its display. -/
theorem result_of_draws {i : Instr} {s t : State} (hi : Draws i) (h : exec i s = .next t) (ht : t.fault = none) :
    t.result = .update t.display := by
  rcases hi with rfl | ⟨x, y, n, rfl⟩
  · cases h; rfl
  · obtain ⟨c, d, rfl⟩ := exec_drw_inv h ht
    rfl

/-- Settles O14: faults return their record, and an instruction that completes writes the result only where it draws. -/
theorem stepResultIsSnapshotNoUpdateOrFault : Obligations.StepResultIsSnapshotNoUpdateOrFault := by
  intro s t h
  rcases step_cases s with ⟨r, hr, h'⟩ | ⟨-, k, w, d, h'⟩ | ⟨hf, w, i, u, hw, hd, h', hc⟩ <;>
    cases h.symm.trans h'
  · exact .inl ⟨r, s.beginStep_fault.trans hr, rfl⟩
  · exact .inl ⟨_, rfl, rfl⟩
  · have ht : t.fault = none := hc.fault.trans (s.beginStep_fault.trans hf)
    exact .inr ⟨ht, w, i, hw, hd, fun hi => result_of_draws hi hc.1 ht,
      fun hi => hc.same .result fun hm => hi (of_result_mem_writes hm)⟩

end Sys2Proof.Machine
end

section
/-! PROOF. Control transfer (R69 to R78): words, faults and targets of the instructions that move `pc`. -/

namespace Sys2Proof.Machine

open Spec

/-! ### Instruction words -/

/-- Every instruction is encoded by its word, and the gate acts on the gated ones only (R56, R59). -/
theorem encodes_encode (i : Instr) : Encodes (encode i) i := by
  refine ⟨Laws.decodeOfEncode true i rfl, ?_⟩
  rw [Laws.decode_encode]
  cases hi : i.isGk <;> simp [Instr.wellFormed, hi]

/-- First nibble 5 or 9 with a last nibble that is not 0 has no row (R57). -/
theorem decode_compare_unrecognized {op n : Nibble} (x y : Reg) (hop : op = 0x5#4 ∨ op = 0x9#4) (hn : n ≠ 0)
    (g : Bool) : decode g (encXYN op x y n) = .unrecognized := by
  apply Laws.decode_of_decodeAny_eq_unrecognized
  rw [Laws.decodeAny_eq_unrecognized]
  have hn' : n.toNat ≠ 0 := by bv_omega
  rcases hop with rfl | rfl <;> simp [Laws.Unmapped, hn']

/-- A step that fetches the word of an instruction that no gate removes runs its meaning (R63). -/
theorem step_of_fetches_encode {s : State} {i : Instr} (h : Fetches s.beginStep (encode i)) (hi : i.isGk = false) :
    step s = exec i s.beginStep.fetched :=
  cycle_of_instr h (Laws.decode_eq_instr.2 ⟨rfl, by simp [Instr.wellFormed, hi]⟩)

/-! ### Frames -/

/-- A listed part that ends as it began can be dropped from the list. -/
theorem Keeps.onlyChanges_tail {p : Part} {ps : List Part} {s t : State} (h : Keeps (p :: ps) s t)
    (hp : p.Same s t) : OnlyChanges ps s t := by
  intro q hq
  by_cases hqp : q = p
  · exact hqp ▸ hp
  · exact h.same q (by simp [hqp, hq])

section
variable (s : State)

theorem State.fetched_keeps : Keeps [.pc, .result] s s.fetched :=
  ((s.setPc_keeps (s.pc + 2)).mono (by simp)).trans ((State.setResult_keeps _ .noUpdate).mono (by simp))

/-- What differs when an instruction's meaning begins: the host's input and the fetch (R63, R135). -/
theorem State.beginStep_fetched_keeps : Keeps [.pc, .dt, .st, .result, .ports] s s.beginStep.fetched :=
  (s.beginStep_keeps.mono (by simp)).trans ((State.fetched_keeps _).mono (by simp))

theorem State.push_setPc_keeps (a : Word) : Keeps [.pc, .sp, .stack] s (s.push.setPc a) :=
  (s.push_keeps.mono (by simp)).trans ((State.setPc_keeps _ _).mono (by simp))

theorem State.callStep_keeps (a : Word) :
    Keeps [.sp, .pc, .stack, .dt, .st, .result, .ports] s (s.beginStep.fetched.push.setPc a) :=
  (s.beginStep_fetched_keeps.mono (by simp)).trans ((State.push_setPc_keeps _ _).mono (by simp))

theorem State.retStep_keeps : Keeps [.sp, .pc, .dt, .st, .result, .ports] s s.beginStep.fetched.pop :=
  (s.beginStep_fetched_keeps.mono (by simp)).trans ((State.pop_keeps _).mono (by simp))

/-! ### A check that fails (R116, R117) -/

theorem State.raiseFault_keeps (i : Instr) (k : FaultKind) (d : Word) :
    Keeps [.pc, .fault, .result] s (s.raiseFault i k d) :=
  ((s.setPc_keeps _).mono (by simp)).trans ((State.takeFault_keeps _ _ _ _).mono (by simp))

theorem raised_raiseFault (i : Instr) (k : FaultKind) (d : Nat) :
    Raised s (s.raiseFault i k (BitVec.ofNat 16 d)) (encode i) k d :=
  ⟨rfl, rfl, rfl, (s.raiseFault_keeps i k _).1⟩

/-! ### RET and CALL (R71, R73) -/

variable {s}

theorem exec_ret_of_ne (h : s.sp ≠ 0) : exec .ret s = .next s.pop := if_neg h

theorem exec_ret_of_empty (h : s.sp = 0) : exec .ret s = .next (s.raiseFault .ret .stackUnderflow 0) := by
  simp [exec, execRet, h]

theorem exec_call_of_ne {nnn : Addr} (h : s.sp ≠ 15) : exec (.call nnn) s = .next (s.push.setPc (addrWord nnn)) :=
  if_neg h

theorem exec_call_of_full {nnn : Addr} (h : s.sp = 15) :
    exec (.call nnn) s = .next (s.raiseFault (.call nnn) .stackOverflow 15) := by
  simp [exec, execCall, h]

theorem State.push_sp_val (h : s.sp ≠ 15) : s.push.sp.val = s.sp.val + 1 := by
  rw [State.push_sp]
  omega

/-- The push writes the entry above the old top and no other. -/
theorem State.push_entry (h : s.sp ≠ 15) (j : Fin 16) :
    s.push.stack[j] = if j.val = s.sp.val + 1 then s.pc else s.stack[j] := by
  have hval := State.push_sp_val h
  rw [State.push_sp] at hval
  simp [Fin.getElem_fin, Vector.getElem_set, hval, eq_comm]

theorem step_of_fetches_call {nnn : Addr} (h : Fetches s.beginStep (encode (.call nnn))) (hsp : s.sp ≠ 15) :
    step s = .next (s.beginStep.fetched.push.setPc (addrWord nnn)) :=
  (step_of_fetches_encode h rfl).trans (exec_call_of_ne (by simpa using hsp))

theorem step_of_fetches_ret (h : Fetches s.beginStep (encode .ret)) (hsp : s.sp ≠ 0) :
    step s = .next s.beginStep.fetched.pop :=
  (step_of_fetches_encode h rfl).trans (exec_ret_of_ne (by simpa using hsp))

/-! ### Targets and skips -/

theorem addrWord_toNat (nnn : Addr) : (addrWord nnn).toNat = nnn.toNat := by
  rw [addrWord, BitVec.toNat_setWidth]
  omega

/-- The target of Bnnn is the exact sum: it fits in 16 bits (R78). -/
theorem jpV0_target_toNat (nnn : Addr) (b : Byte) : (addrWord nnn + byteWord b).toNat = nnn.toNat + b.toNat := by
  rw [BitVec.toNat_add, addrWord_toNat, byteWord, BitVec.toNat_setWidth]
  omega

variable (s)

theorem State.skipIf_beq_pc (a b : Byte) : (s.skipIf (a == b)).pc = if a = b then s.pc + 2 else s.pc := by
  simp

theorem State.skipIf_bne_pc (a b : Byte) : (s.skipIf (a != b)).pc = if a = b then s.pc else s.pc + 2 := by
  simp [ite_not]

end

/-! ### The obligations -/

/-- Settles O17: the pop where an address is held, the raised fault where none is. -/
theorem returnPopsOrUnderflows : Obligations.ReturnPopsOrUnderflows := by
  refine ⟨encodes_encode .ret, fun s h => ?_, fun s h => ?_⟩
  · exact ⟨s.pop, exec_ret_of_ne h, rfl, Fin.val_sub_one_of_ne_zero h, s.pop_keeps.1⟩
  · exact ⟨_, exec_ret_of_empty h, raised_raiseFault s .ret .stackUnderflow 0⟩

/-- Settles O19: the push and the jump below 15 held addresses, the raised fault at 15. -/
theorem callPushesOrOverflows : Obligations.CallPushesOrOverflows := by
  refine fun nnn => ⟨encodes_encode (.call nnn), fun s h => ?_, fun s h => ?_⟩
  · exact ⟨_, exec_call_of_ne h, State.push_sp_val h, addrWord_toNat nnn, State.push_entry h,
      (s.push_setPc_keeps _).1⟩
  · exact ⟨_, exec_call_of_full h, raised_raiseFault s (.call nnn) .stackOverflow 15⟩

/-- Settles O20: the RET pops the entry that the CALL pushed, and no host input touches the stack. -/
theorem callThenReturnComesBack : Obligations.CallThenReturnComesBack := by
  intro s t nnn hcall hsp hstep hret
  obtain rfl := Host.Outcome.next.inj ((step_of_fetches_call hcall hsp).symm.trans hstep)
  have hsp_pushed : s.sp + 1 ≠ 0 := by omega
  have hkeeps := (s.callStep_keeps (addrWord nnn)).trans ((State.retStep_keeps _).mono (by simp))
  obtain ⟨hf, -⟩ := hcall
  refine ⟨_, step_of_fetches_ret hret (by simpa using hsp_pushed), by simpa using hf, by simp, by simp,
    hkeeps.onlyChanges_tail (by simp [Part.Same]), fun j hj => ?_⟩
  simpa [hj] using State.push_entry (s := s.beginStep.fetched) (by simpa using hsp) j

/-- Settles O21: both meanings are a skip on the comparison with the byte. -/
theorem skipsOnImmediate : Obligations.SkipsOnImmediate := by
  refine fun x kk => ⟨encodes_encode (.seImm x kk), encodes_encode (.sneImm x kk), fun s => ⟨?_, ?_⟩⟩
  · exact ⟨_, rfl, s.skipIf_beq_pc _ _, (s.skipIf_keeps _).1⟩
  · exact ⟨_, rfl, s.skipIf_bne_pc _ _, (s.skipIf_keeps _).1⟩

/-- Settles O22: both meanings are a skip on the comparison of the registers. -/
theorem skipsOnRegisters : Obligations.SkipsOnRegisters := by
  refine fun x y => ⟨encodes_encode (.seReg x y), encodes_encode (.sneReg x y), fun n hn => ⟨?_, ?_⟩,
    fun s => ⟨?_, ?_⟩⟩
  · exact decode_compare_unrecognized x y (.inl rfl) hn true
  · exact decode_compare_unrecognized x y (.inr rfl) hn true
  · exact ⟨_, rfl, s.skipIf_beq_pc _ _, (s.skipIf_keeps _).1⟩
  · exact ⟨_, rfl, s.skipIf_bne_pc _ _, (s.skipIf_keeps _).1⟩

/-- Settles O23: the target is the exact sum, bounded by the widths of its operands. -/
theorem jumpWithOffsetIsExact : Obligations.JumpWithOffsetIsExact := by
  refine fun nnn => ⟨encodes_encode (.jpV0 nnn), fun s => ?_⟩
  have htarget := jpV0_target_toNat nnn (s.readV 0)
  refine ⟨_, rfl, htarget, ?_, (s.setPc_keeps _).1⟩
  rw [State.setPc_pc, htarget]
  omega

/-- Settles O16: NOP answers the fetched state, and past 0xFFE the next fetch is out of bounds. -/
theorem nopOnlyAdvancesPc : Obligations.NopOnlyAdvancesPc := by
  refine ⟨encodes_encode .nop, fun s => rfl, fun s h => ?_⟩
  have hpc : s.beginStep.fetched.pc = s.pc + 2 := by simp
  refine ⟨s.beginStep.fetched, step_of_fetches_encode (i := .nop) h rfl, hpc, rfl, s.beginStep.fetched_keeps.1,
    fun hend => ?_⟩
  have hend' : s.beginStep.fetched.pc = 0x1000 := by rw [hpc, hend]; rfl
  obtain ⟨hf, -⟩ := h
  obtain ⟨u, hu, hfault, -⟩ := step_of_fetchFault (s := s.beginStep.fetched) hf
    (State.fetchFault_of_outOfBounds (by rw [hend']; decide))
  exact ⟨u, hu, by rw [hfault, hend']⟩

/-- Settles O18: the target is the zero-extended address. -/
theorem jumpSetsPc : Obligations.JumpSetsPc :=
  fun nnn => ⟨encodes_encode (.jp nnn), fun s => ⟨_, rfl, addrWord_toNat nnn, (s.setPc_keeps _).1⟩⟩

end Sys2Proof.Machine
end

section
/-! PROOF. Register loads and the arithmetic and logic unit (R79 to R92): results and flags as numbers, and what each
instruction leaves in the registers. -/

namespace Sys2Proof.Machine

open Spec

/-! ### Flags as numbers (R92) -/

theorem flagByte_toNat (c : Bool) : (flagByte c).toNat = c.toNat := by cases c <;> rfl

theorem flagByte_decide_toNat (p : Prop) [Decidable p] : (flagByte (decide p)).toNat = if p then 1 else 0 := by
  by_cases h : p <;> simp [flagByte, h]

theorem carryFlag_toNat (a b : Byte) : (carryFlag a b).toNat = if a.toNat + b.toNat > 255 then 1 else 0 :=
  flagByte_decide_toNat _

theorem notBorrowFlag_toNat (a b : Byte) : (notBorrowFlag a b).toNat = if a.toNat ≥ b.toNat then 1 else 0 :=
  flagByte_decide_toNat _

theorem shiftedOutRight_toNat (a : Byte) : (shiftedOutRight a).toNat = a.toNat % 2 := by
  rw [shiftedOutRight, flagByte_toNat, BitVec.getLsbD, Nat.toNat_testBit, Nat.pow_zero, Nat.div_one]

theorem shiftedOutLeft_toNat (a : Byte) : (shiftedOutLeft a).toNat = a.toNat / 128 := by
  rw [shiftedOutLeft, flagByte_toNat, BitVec.getLsbD, Nat.toNat_testBit]
  omega

/-! ### Results as numbers -/

theorem toNat_byte_sub (a b : Byte) : (a - b).toNat = (a.toNat + 256 - b.toNat) % 256 := by
  rw [BitVec.toNat_sub]
  omega

theorem toNat_byte_shiftRight_one (a : Byte) : (a >>> 1).toNat = a.toNat / 2 := by
  rw [BitVec.toNat_ushiftRight, Nat.shiftRight_one]

theorem toNat_byte_shiftLeft_one (a : Byte) : (a <<< 1).toNat = a.toNat * 2 % 256 := by
  rw [BitVec.toNat_shiftLeft, Nat.shiftLeft_eq, Nat.pow_one]

section
variable (s : State)

/-- The operand of the shifts, by `SHIFT_SOURCE` (R88, R90). -/
theorem State.shiftOperand_toNat {x y : Reg} {a : Nat}
    (h : (s.cfg.shiftSource = .vx ∧ a = (s.readV x).toNat) ∨ (s.cfg.shiftSource = .vy ∧ a = (s.readV y).toNat)) :
    (s.shiftOperand x y).toNat = a := by
  rcases h with ⟨hsrc, rfl⟩ | ⟨hsrc, rfl⟩ <;> simp [State.shiftOperand, hsrc]

/-! ### A result with its flag (R79) -/

/-- Writing a result and then its flag leaves both, the flag winning in VF, and touches no other part. -/
theorem State.flagResult_writeWithFlag (x : Reg) {b f : Byte} {result flag : Nat} (hb : b.toNat = result)
    (hf : f.toNat = flag) :
    FlagResult s (s.writeWithFlag x b f) x result flag ∧ OnlyChanges [.v] s (s.writeWithFlag x b f) := by
  refine ⟨fun r => ?_, (s.writeWithFlag_keeps x b f).1⟩
  rw [State.readV_writeWithFlag, apply_ite BitVec.toNat, apply_ite BitVec.toNat, hb, hf]
  rfl

/-! ### A logic result (R83 to R85) -/

/-- What a logic instruction with destination `x` and source `y` leaves in `t`: `f` of the operands bit by bit, VF
cleared under `LOGIC_VF_RESET` and left alone otherwise. -/
def LogicResult (s t : State) (x y : Reg) (f : Bool → Bool → Bool) : Prop :=
  (∀ r, r ≠ x → r ≠ 15 → t.readV r = s.readV r) ∧
  (s.cfg.logicVfReset = true → t.readV 15 = 0) ∧
  (s.cfg.logicVfReset = false → x ≠ 15 → t.readV 15 = s.readV 15) ∧
  (s.cfg.logicVfReset = false ∨ x ≠ 15 →
    ∀ k < 8, (t.readV x).getLsbD k = f ((s.readV x).getLsbD k) ((s.readV y).getLsbD k)) ∧
  OnlyChanges [.v] s t

theorem State.logicResult_writeLogic (x y : Reg) {b : Byte} {f : Bool → Bool → Bool}
    (hb : ∀ k, b.getLsbD k = f ((s.readV x).getLsbD k) ((s.readV y).getLsbD k)) :
    LogicResult s (s.writeLogic x b) x y f := by
  refine ⟨fun r hx hvf => ?_, fun hreset => ?_, fun hkeep hx => ?_, fun hdest k _ => ?_, (s.writeLogic_keeps x b).1⟩
  · simp [hx, vf, hvf]
  · simp [hreset, vf]
  · simp [hkeep, hx.symm]
  · have hnotCleared : ¬ (s.cfg.logicVfReset = true ∧ x = vf) := by
      rintro ⟨hreset, hvf⟩
      exact hdest.elim (by simp [hreset]) (absurd hvf)
    rw [State.readV_writeLogic, if_neg hnotCleared, if_pos rfl, hb]

end

/-! ### The obligations -/

/-- Settles O25: one register write of the wrapped sum, with no flag. -/
theorem addImmediateWrapsWithoutFlag : Obligations.AddImmediateWrapsWithoutFlag := by
  refine fun x kk => ⟨encodes_encode (.addImm x kk), fun s => ⟨_, rfl, fun r => ?_, (s.writeV_keeps _ _).1⟩⟩
  rw [State.readV_writeV, apply_ite BitVec.toNat, BitVec.toNat_add]

/-- Settles O26: each instruction writes a logic result whose bits are those of its operation. -/
theorem logicInstructions : Obligations.LogicInstructions := by
  refine fun x y => ⟨encodes_encode (.orReg x y), encodes_encode (.andReg x y), encodes_encode (.xorReg x y), rfl,
    fun s => ⟨⟨_, rfl, ?_⟩, ⟨_, rfl, ?_⟩, ⟨_, rfl, ?_⟩⟩⟩
  · exact s.logicResult_writeLogic x y fun _ => BitVec.getLsbD_or
  · exact s.logicResult_writeLogic x y fun _ => BitVec.getLsbD_and
  · exact s.logicResult_writeLogic x y fun _ => BitVec.getLsbD_xor

/-- Settles O27: the wrapped sum with the carry as its flag. -/
theorem addSetsCarry : Obligations.AddSetsCarry :=
  fun x y => ⟨encodes_encode (.addReg x y), fun s =>
    ⟨_, rfl, s.flagResult_writeWithFlag x (BitVec.toNat_add _ _) (carryFlag_toNat _ _)⟩⟩

/-- Settles O28: the wrapped difference with NOT borrow as its flag, in both directions. -/
theorem subtractSetsNotBorrow : Obligations.SubtractSetsNotBorrow := by
  refine fun x y => ⟨encodes_encode (.sub x y), encodes_encode (.subn x y), fun s => ⟨⟨_, rfl, ?_⟩, ⟨_, rfl, ?_⟩⟩⟩
  · exact s.flagResult_writeWithFlag x (toNat_byte_sub _ _) (notBorrowFlag_toNat _ _)
  · exact s.flagResult_writeWithFlag x (toNat_byte_sub _ _) (notBorrowFlag_toNat _ _)

/-- Settles O29: the operand named by `SHIFT_SOURCE`, halved or doubled, with the dropped bit as its flag. -/
theorem shiftsByOne : Obligations.ShiftsByOne := by
  refine fun x y => ⟨encodes_encode (.shr x y), encodes_encode (.shl x y), rfl, fun s a ha => ?_⟩
  obtain rfl := s.shiftOperand_toNat ha
  refine ⟨⟨_, rfl, ?_⟩, ⟨_, rfl, ?_⟩⟩
  · exact s.flagResult_writeWithFlag x (toNat_byte_shiftRight_one _) (shiftedOutRight_toNat _)
  · exact s.flagResult_writeWithFlag x (toNat_byte_shiftLeft_one _) (shiftedOutLeft_toNat _)

/-- Settles O30: the destination is the draw AND the mask, which 0 clears and 0xFF leaves as it is. -/
theorem randomMasksTheDraw : Obligations.RandomMasksTheDraw := by
  refine fun x kk => ⟨encodes_encode (.rnd x kk), fun s => ?_⟩
  have hx : (s.writeV x (s.rnd &&& kk)).readV x = s.rnd &&& kk := (s.readV_writeV x _ x).trans (if_pos rfl)
  refine ⟨_, rfl, fun k _ => ?_, fun hzero => ?_, fun hones => ?_, fun r hr => ?_, (s.writeV_keeps _ _).1⟩
  · rw [hx, BitVec.getLsbD_and]
  · rw [hx, hzero]
    exact BitVec.and_zero
  · rw [hx, hones]
    exact BitVec.and_allOnes
  · exact (s.readV_writeV x _ r).trans (if_neg hr)

/-- Settles O24: each load is one register write. -/
theorem loadsIntoRegister : Obligations.LoadsIntoRegister := by
  refine fun x => ⟨fun kk => ⟨encodes_encode (.ldImm x kk), fun s => ?_⟩,
    fun y => ⟨encodes_encode (.ldReg x y), fun s => ?_⟩⟩
  · exact ⟨_, rfl, s.readV_writeV x kk, (s.writeV_keeps _ _).1⟩
  · exact ⟨_, rfl, s.readV_writeV x (s.readV y), (s.writeV_keeps _ _).1⟩

end Sys2Proof.Machine
end

section
/-! PROOF. Index register and memory transfers (R93 to R98): the values of I, the two sides of the bounds check, and what
the block transfers leave in memory and in the registers. -/

namespace Sys2Proof.Machine

open Spec

section
variable {s t : State} {x : Reg}

/-! ### I -/

theorem byteWord_toNat (b : Byte) : (byteWord b).toNat = b.toNat := by
  rw [byteWord, BitVec.toNat_setWidth]
  omega

/-- Where R9 admits `FONT_BASE`, a glyph's address is the exact sum (R95). -/
theorem glyphAddress_toNat {cfg : Config} (hcfg : cfg.valid = true) (v : Byte) :
    (glyphAddress cfg v).toNat = cfg.fontBase + 5 * (v.toNat % 16) := by
  have hbase : cfg.fontBase + 79 ≤ 0x1FF := of_decide_eq_true hcfg
  have hnibble : (v &&& 0x0F).toNat = v.toNat % 16 := Nat.and_two_pow_sub_one_eq_mod v.toNat 4
  rw [glyphAddress, BitVec.toNat_ofNat, hnibble]
  omega

/-- After a block inside memory the sum that moves I does not wrap (R97, R98). -/
theorem State.advanceI_i_toNat (h : s.i.toNat + x.val ≤ Config.addrMax) :
    (s.advanceI x).i.toNat = if s.cfg.loadStoreIIncrement then s.i.toNat + x.val + 1 else s.i.toNat := by
  have hfits : s.i.toNat + x.val + 1 < 2 ^ 16 := by
    rw [Config.addrMax] at h
    omega
  rw [State.advanceI_i, apply_ite BitVec.toNat, BitVec.toNat_ofNat, Nat.mod_eq_of_lt hfits]

theorem State.advanceI_keeps_i (s : State) (x : Reg) : Keeps [.i] s (s.advanceI x) :=
  (s.advanceI_keeps x).mono (by split <;> simp)

/-! ### The two sides of the bounds check (R37) -/

/-- A range that ends above 0xFFF has its first bad address at its base or at 0x1000. -/
theorem firstBad_of_gt {base k : Nat} (h : Config.addrMax < base + k) :
    firstBad base (k + 1) = some (max base 0x1000) :=
  firstBad_eq_some.2 ⟨by omega, by omega, rfl⟩

theorem exec_ldB_of_gt (h : Config.addrMax < s.i.toNat + 2) : exec (.ldB x) s =
    .next (s.raiseFault (.ldB x) .dataOutOfBounds (BitVec.ofNat 16 (max s.i.toNat 0x1000))) := by
  simp only [exec, execLdB, firstBad_of_gt h]

theorem exec_ldMemVx_of_gt (h : Config.addrMax < s.i.toNat + x.val) : exec (.ldMemVx x) s =
    .next (s.raiseFault (.ldMemVx x) .dataOutOfBounds (BitVec.ofNat 16 (max s.i.toNat 0x1000))) := by
  simp only [exec, execLdMemVx, firstBad_of_gt h]

theorem exec_ldVxMem_of_gt (h : Config.addrMax < s.i.toNat + x.val) : exec (.ldVxMem x) s =
    .next (s.raiseFault (.ldVxMem x) .dataOutOfBounds (BitVec.ofNat 16 (max s.i.toNat 0x1000))) := by
  simp only [exec, execLdVxMem, firstBad_of_gt h]

/-- Fx65 with its addresses in memory loads the registers (R98). -/
theorem exec_ldVxMem_of_le (h : s.i.toNat + x.val ≤ Config.addrMax) : exec (.ldVxMem x) s =
    .next (State.advanceI { s with v := loadRegs s.v 0 (s.readBlock s.i.toNat (x.val + 1)) } x) := by
  have hb : firstBad s.i.toNat (x.val + 1) = none := firstBad_eq_none.2 (.inr (by omega))
  simp only [exec, execLdVxMem, hb]

/-! ### What a store leaves in memory -/

/-- A byte outside a stored block reads as before. -/
theorem State.readByte_writeBlock_outside (hm : Memory.risingFrom 0 s.mem = true) {base a : Nat} {bytes : List Byte}
    (ha : a < base ∨ base + bytes.length ≤ a) : (s.writeBlock base bytes).readByte a = s.readByte a := by
  rw [s.readByte_writeBlock hm, if_neg (by omega)]

theorem length_storedRegs (s : State) (x : Reg) : (s.v.toList.take (x.val + 1)).length = x.val + 1 := by
  simp

/-- The digits of a byte as numbers: each is below 10 and fits (R96). -/
theorem decimalDigits_toNat (v : Byte) {k : Nat} (hk : k < 3) :
    ((decimalDigits v)[k]'hk).toNat = [v.toNat / 100, v.toNat / 10 % 10, v.toNat % 10][k]'hk :=
  match k, hk with
  | 0, _ | 1, _ | 2, _ => Nat.mod_eq_of_lt (by omega)

/-! ### What a load leaves in the registers -/

/-- After Fx65 `V[r]` is the byte at `I + r` for `r` up to `x`, and unchanged above. -/
theorem readV_after_ldVxMem (hb : s.i.toNat + x.val ≤ Config.addrMax) (h : exec (.ldVxMem x) s = .next t) (r : Reg) :
    t.readV r = if r.val ≤ x.val then s.readByte (s.i.toNat + r.val) else s.readV r := by
  cases h.symm.trans (exec_ldVxMem_of_le hb)
  rw [State.advanceI_readV, State.readV, loadRegs_getElem, State.length_readBlock]
  by_cases hr : r.val ≤ x.val
  · rw [if_pos (by omega), if_pos hr, Nat.sub_zero, s.getD_readBlock _ _ _ (by omega)]
  · rw [if_neg (by omega), if_neg hr, State.readV]

end

/-! ### The obligations -/

/-- Settles O32: each is one write of I, and the sums of R93 and R95 do not wrap. -/
theorem indexInstructions : Obligations.IndexInstructions := by
  refine ⟨fun nnn => ⟨encodes_encode (.ldI nnn), fun s => ?_⟩, fun x => ⟨encodes_encode (.addI x), fun s => ?_⟩,
    fun x => ⟨encodes_encode (.ldF x), fun s => ?_⟩⟩
  · exact ⟨_, rfl, addrWord_toNat nnn, (s.setI_keeps _).1⟩
  · refine ⟨_, rfl, ?_, (s.setI_keeps _).1⟩
    rw [State.setI_i, BitVec.toNat_add, byteWord_toNat]
  · exact ⟨_, rfl, fun hcfg => glyphAddress_toNat hcfg _, (s.setI_keeps _).1⟩

/-- Settles O33: the store of the three digits where they fit in memory, the raised fault where they do not. -/
theorem decimalStore : Obligations.DecimalStore := by
  refine fun x => ⟨encodes_encode (.ldB x), fun s hm => ⟨fun hb => ?_, fun hb => ?_⟩⟩
  · have hexec := exec_ldB_of_le (x := x) hb
    have hdigit {k : Nat} (hk : k < 3) :=
      (congrArg BitVec.toNat (readByte_after_ldB hm hb hexec hk)).trans (decimalDigits_toNat _ hk)
    exact ⟨_, hexec, hdigit (k := 0) (by decide), hdigit (k := 1) (by decide), hdigit (k := 2) (by decide),
      fun a ha => State.readByte_writeBlock_outside (Memory.rising_of_wf hm) ha, (s.writeBlock_keeps _ _).1⟩
  · exact ⟨_, exec_ldB_of_gt hb, raised_raiseFault s (.ldB x) .dataOutOfBounds _⟩

/-- Settles O34: the store of V0 to Vx where the block fits in memory, the raised fault where it does not. -/
theorem blockStore : Obligations.BlockStore := by
  refine fun x => ⟨encodes_encode (.ldMemVx x), rfl, fun s hm => ⟨fun hb => ?_, fun hb => ?_⟩⟩
  · have hexec := exec_ldMemVx_of_le (x := x) hb
    refine ⟨_, hexec, readByte_after_ldMemVx hm hb hexec, fun a ha => ?_, State.advanceI_i_toNat hb,
      (((s.writeBlock_keeps _ _).mono (by simp)).trans ((State.advanceI_keeps_i _ x).mono (by simp))).1⟩
    rw [State.advanceI_readByte]
    exact State.readByte_writeBlock_outside (Memory.rising_of_wf hm) (by rw [length_storedRegs]; omega)
  · exact ⟨_, exec_ldMemVx_of_gt hb, raised_raiseFault s (.ldMemVx x) .dataOutOfBounds _⟩

/-- Settles O35: the load of V0 to Vx where the block fits in memory, the raised fault where it does not. -/
theorem blockLoad : Obligations.BlockLoad := by
  refine fun x => ⟨encodes_encode (.ldVxMem x), fun s => ⟨fun hb => ?_, fun hb => ?_⟩⟩
  · have hexec := exec_ldVxMem_of_le (x := x) hb
    exact ⟨_, hexec, readV_after_ldVxMem hb hexec, State.advanceI_i_toNat hb,
      (((s.setV_keeps _).mono (by simp)).trans ((State.advanceI_keeps_i _ x).mono (by simp))).1⟩
  · exact ⟨_, exec_ldVxMem_of_gt hb, raised_raiseFault s (.ldVxMem x) .dataOutOfBounds _⟩

/-- Settles O36: the load reads at `I + r` the byte that the store left there, and memory does not depend on the
registers. -/
theorem blockStoreThenLoadRestores : Obligations.BlockStoreThenLoadRestores := by
  intro x s t v hm hb hstore
  have hload := exec_ldVxMem_of_le (s := { t with v := v, i := s.i }) (x := x) hb
  have hread := readV_after_ldVxMem (s := { t with v := v, i := s.i }) hb hload
  refine ⟨_, hload, fun r hr => ?_, fun r hr => ?_⟩
  · exact ((hread r).trans (if_pos hr)).trans (readByte_after_ldMemVx hm hb hstore r hr)
  · exact (hread r).trans (if_neg (by omega))

end Sys2Proof.Machine
end

section
/-! PROOF. The display (R100 to R105): one pixel, which pixels a sprite covers under both edge policies, and what drawing
does to them and to the collision flag. -/

namespace Sys2Proof.Machine

open Spec

/-! ### Pixels -/

section
variable (d : Display) (r r' : Fin 32) (c c' : Fin 64)

theorem Display.pixel_clear : Display.pixel Display.clear r c = false := by
  simp [Display.pixel, Display.clear]

theorem Display.pixel_setPixel_same (b : Bool) : Display.pixel (Display.setPixel d r c b) r c = b := by
  simp [Display.pixel, Display.setPixel]

theorem Display.pixel_setPixel_of_ne (b : Bool) (h : (r, c) ≠ (r', c')) :
    Display.pixel (Display.setPixel d r c b) r' c' = Display.pixel d r' c' := by
  by_cases hr : r = r'
  · subst hr
    have hc : (c : Nat) ≠ c' := fun e => h (by rw [Fin.ext e])
    simp [Display.pixel, Display.setPixel, hc]
  · have hr' : (r : Nat) ≠ r' := fun e => hr (Fin.ext e)
    simp [Display.pixel, Display.setPixel, hr']

/-- A display is its pixels. -/
theorem Display.ext_pixel {d d' : Display} (h : ∀ r c, Display.pixel d r c = Display.pixel d' r c) : d = d' :=
  Vector.ext fun r hr => Vector.ext fun c hc => h ⟨r, hr⟩ ⟨c, hc⟩

end

/-! ### Where a sprite bit lands (R104) -/

section
variable {edge : SpriteEdge} {row col row' col' : Nat}

/-- Both policies place a bit at its position modulo the screen; CLIP only where that is the position itself. -/
theorem place_eq_some {r : Fin 32} {c : Fin 64} : place edge row col = some (r, c) ↔
    row % 32 = r.val ∧ col % 64 = c.val ∧ (edge = .clip → row < 32 ∧ col < 64) := by
  cases edge with
  | clip =>
    by_cases h : row < 32 ∧ col < 64
    · simp [place, h, Fin.ext_iff, Nat.mod_eq_of_lt]
    · simp [place, h]
  | wrap => simp [place, Fin.ext_iff]

/-- Two bits land on one pixel only where their positions agree modulo the screen. -/
theorem place_inj {p : Fin 32 × Fin 64} (h : place edge row col = some p) (h' : place edge row' col' = some p) :
    row % 32 = row' % 32 ∧ col % 64 = col' % 64 := by
  obtain ⟨hr, hc, -⟩ := place_eq_some.1 h
  obtain ⟨hr', hc', -⟩ := place_eq_some.1 h'
  exact ⟨hr.trans hr'.symm, hc.trans hc'.symm⟩

end

/-! ### The pixels that a sprite covers (R103) -/

/-- The pixels under the bits `b` up to `b + count - 1` of a sprite byte that are 1. -/
def bytePixels (edge : SpriteEdge) (bits : Byte) (row x0 b count : Nat) : Set (Fin 32 × Fin 64) :=
  {p | ∃ j, b ≤ j ∧ j < b + count ∧ bits.getLsbD (7 - j) = true ∧ place edge row (x0 + j) = some p}

/-- The pixels under the sprite bytes from row `row` down. -/
def spritePixels (edge : SpriteEdge) (x0 row : Nat) (bytes : List Byte) : Set (Fin 32 × Fin 64) :=
  {p | ∃ k, k < bytes.length ∧ p ∈ bytePixels edge (bytes.getD k 0#8) (row + k) x0 0 8}

section
variable {edge : SpriteEdge} {bits : Byte} {rest : List Byte} {row x0 b count : Nat}

theorem bytePixels_zero : bytePixels edge bits row x0 b 0 = ∅ := by
  ext p
  simp only [bytePixels, Set.mem_ofPred_eq, Set.mem_empty_iff_false, iff_false]
  omega

theorem bytePixels_succ : bytePixels edge bits row x0 b (count + 1) =
    bytePixels edge bits row x0 b 1 ∪ bytePixels edge bits row x0 (b + 1) count := by
  ext p
  constructor
  · rintro ⟨j, hlo, hhi, hj⟩
    by_cases hb : j = b
    · exact .inl ⟨j, hlo, by omega, hj⟩
    · exact .inr ⟨j, by omega, by omega, hj⟩
  · rintro (⟨j, hlo, hhi, hj⟩ | ⟨j, hlo, hhi, hj⟩)
    · exact ⟨j, hlo, by omega, hj⟩
    · exact ⟨j, by omega, by omega, hj⟩

theorem bytePixels_one : bytePixels edge bits row x0 b 1 =
    {p | bits.getLsbD (7 - b) = true ∧ place edge row (x0 + b) = some p} := by
  ext p
  constructor
  · rintro ⟨j, hlo, hhi, hj⟩
    obtain rfl : j = b := by omega
    exact hj
  · exact fun h => ⟨b, le_rfl, by omega, h⟩

/-- The bits of one byte lie in different columns (R104). -/
theorem disjoint_bytePixels (hcount : count < 64) :
    Disjoint (bytePixels edge bits row x0 b 1) (bytePixels edge bits row x0 (b + 1) count) := by
  refine Set.disjoint_left.2 ?_
  rintro p ⟨j, hlo, hhi, -, hp⟩ ⟨j', hlo', hhi', -, hp'⟩
  obtain ⟨-, hcol⟩ := place_inj hp hp'
  omega

theorem spritePixels_nil : spritePixels edge x0 row [] = ∅ := by
  simp [spritePixels]

theorem spritePixels_cons : spritePixels edge x0 row (bits :: rest) =
    bytePixels edge bits row x0 0 8 ∪ spritePixels edge x0 (row + 1) rest := by
  ext p
  constructor
  · rintro ⟨k, hk, hp⟩
    cases k with
    | zero => exact .inl hp
    | succ k => exact .inr ⟨k, Nat.lt_of_succ_lt_succ hk, by rwa [Nat.add_right_comm]⟩
  · rintro (hp | ⟨k, hk, hp⟩)
    · exact ⟨0, Nat.succ_pos _, hp⟩
    · exact ⟨k + 1, Nat.succ_lt_succ hk, by rwa [Nat.add_right_comm] at hp⟩

/-- The bytes of one sprite lie in different rows (R104). -/
theorem disjoint_spritePixels (hlen : rest.length < 32) :
    Disjoint (bytePixels edge bits row x0 0 8) (spritePixels edge x0 (row + 1) rest) := by
  refine Set.disjoint_left.2 ?_
  rintro p ⟨j, -, -, -, hp⟩ ⟨k, hk, j', -, -, -, hp'⟩
  obtain ⟨hrow, -⟩ := place_inj hp hp'
  omega

end

/-! ### Drawing (R102, R103) -/

/-- From `g` to `g'` exactly the pixels of `S` are flipped, and a collision is recorded where one of them was on. -/
structure Flips (S : Set (Fin 32 × Fin 64)) (g g' : Drawing) : Prop where
  flipped : ∀ r c, (r, c) ∈ S → Display.pixel g'.display r c = !Display.pixel g.display r c
  kept : ∀ r c, (r, c) ∉ S → Display.pixel g'.display r c = Display.pixel g.display r c
  hit : g'.hit = true ↔ g.hit = true ∨ ∃ r c, (r, c) ∈ S ∧ Display.pixel g.display r c = true

theorem Flips.empty (g : Drawing) : Flips ∅ g g :=
  ⟨fun _ _ h => h.elim, fun _ _ _ => rfl, by simp⟩

/-- Flipping disjoint sets one after the other flips their union: no pixel is flipped twice. -/
theorem Flips.union {S S' : Set (Fin 32 × Fin 64)} {g g' g'' : Drawing} (hd : Disjoint S S') (h : Flips S g g')
    (h' : Flips S' g' g'') : Flips (S ∪ S') g g'' where
  flipped r c
    | .inl hp => (h'.kept r c (Set.disjoint_left.1 hd hp)).trans (h.flipped r c hp)
    | .inr hp => (h'.flipped r c hp).trans (congrArg _ (h.kept r c (Set.disjoint_right.1 hd hp)))
  kept r c hp := (h'.kept r c fun hp' => hp (.inr hp')).trans (h.kept r c fun hp' => hp (.inl hp'))
  hit := by
    have hafter : (∃ r c, (r, c) ∈ S' ∧ Display.pixel g'.display r c = true) ↔
        ∃ r c, (r, c) ∈ S' ∧ Display.pixel g.display r c = true :=
      exists₂_congr fun r c => and_congr_right fun hp => by rw [h.kept r c (Set.disjoint_right.1 hd hp)]
    rw [h'.hit, h.hit, hafter, or_assoc]
    simp only [Set.mem_union, or_and_right, exists_or]

theorem flips_drawBit (edge : SpriteEdge) (row col : Nat) (g : Drawing) :
    Flips {p | place edge row col = some p} g (drawBit edge row col g) := by
  unfold drawBit
  cases hplace : place edge row col with
  | none => simpa using Flips.empty g
  | some p =>
    obtain ⟨r, c⟩ := p
    refine ⟨fun r' c' hp => ?_, fun r' c' hp => ?_, by simp⟩
    · cases hp
      exact Display.pixel_setPixel_same ..
    · exact Display.pixel_setPixel_of_ne _ _ _ _ _ _ fun e => hp (congrArg some e)

theorem flips_drawByte (edge : SpriteEdge) (bits : Byte) (row x0 b count : Nat) (hcount : count ≤ 64) (g : Drawing) :
    Flips (bytePixels edge bits row x0 b count) g (drawByte edge bits row x0 b count g) := by
  induction count generalizing b g with
  | zero => exact bytePixels_zero ▸ Flips.empty g
  | succ count ih =>
    rw [bytePixels_succ]
    refine Flips.union (disjoint_bytePixels hcount) ?_ (ih (b + 1) (by omega) _)
    rw [bytePixels_one]
    by_cases hbit : bits.getLsbD (7 - b) = true
    · simpa [hbit] using flips_drawBit edge row (x0 + b) g
    · simpa [hbit] using Flips.empty g

theorem flips_drawRows (edge : SpriteEdge) (x0 row : Nat) (bytes : List Byte) (hlen : bytes.length ≤ 32) (g : Drawing) :
    Flips (spritePixels edge x0 row bytes) g (drawRows edge x0 row bytes g) := by
  induction bytes generalizing row g with
  | nil => exact spritePixels_nil ▸ Flips.empty g
  | cons bits rest ih =>
    rw [spritePixels_cons]
    exact (flips_drawByte edge bits row x0 0 8 (by decide) g).union (disjoint_spritePixels hlen)
      (ih (row + 1) (Nat.le_of_succ_le hlen) _)

/-! ### DRW (R103) -/

section
variable {s : State} {x y : Reg} {n : Fin 16}

/-- The pixels whose sprite bit is 1. -/
def spriteSet (s : State) (x y : Reg) (n : Fin 16) : Set (Fin 32 × Fin 64) := {p | spriteBit s x y n p.1 p.2 = true}

/-- The bytes that DRW reads at I cover the pixels of the specification's `spriteBit`: a pixel's row and column offsets
from the start position determine its bit. -/
theorem spritePixels_eq_spriteSet (s : State) (x y : Reg) (n : Fin 16) :
    spritePixels s.cfg.spriteEdge ((s.readV x).toNat % 64) ((s.readV y).toNat % 32) (s.readBlock s.i.toNat n.val) =
      spriteSet s x y n := by
  ext ⟨r, c⟩
  change _ ↔ spriteBit s x y n r c = true
  have hbyte {k : Nat} (hk : k < n.val) := s.getD_readBlock s.i.toNat n.val k hk
  unfold spritePixels spriteBit
  rw [State.length_readBlock]
  cases s.cfg.spriteEdge with
  | clip =>
    simp only [Bool.and_eq_true, decide_eq_true_eq]
    constructor
    · rintro ⟨k, hk, j, -, hj, hbit, hplace⟩
      obtain ⟨hr, hc, hon⟩ := place_eq_some.1 hplace
      have hon := hon rfl
      obtain rfl : k = r.val - (s.readV y).toNat % 32 := by omega
      obtain rfl : j = c.val - (s.readV x).toNat % 64 := by omega
      exact ⟨by omega, by rwa [hbyte hk] at hbit⟩
    · rintro ⟨hin, hbit⟩
      have hk : r.val - (s.readV y).toNat % 32 < n.val := by omega
      exact ⟨_, hk, c.val - (s.readV x).toNat % 64, Nat.zero_le _, by omega, by rwa [hbyte hk],
        place_eq_some.2 ⟨by omega, by omega, fun _ => by omega⟩⟩
  | wrap =>
    simp only [Bool.and_eq_true, decide_eq_true_eq]
    constructor
    · rintro ⟨k, hk, j, -, hj, hbit, hplace⟩
      obtain ⟨hr, hc, -⟩ := place_eq_some.1 hplace
      obtain rfl : k = (r.val + 32 - (s.readV y).toNat % 32) % 32 := by omega
      obtain rfl : j = (c.val + 64 - (s.readV x).toNat % 64) % 64 := by omega
      exact ⟨⟨hk, by omega⟩, by rwa [hbyte hk] at hbit⟩
    · rintro ⟨⟨hk, hj⟩, hbit⟩
      exact ⟨_, hk, _, Nat.zero_le _, by omega, by rwa [hbyte hk], place_eq_some.2 ⟨by omega, by omega, nofun⟩⟩

/-- The state after DRW has drawn `g`: VF, the display and the snapshot. -/
def State.drawn (s : State) (g : Drawing) : State := ((s.writeV vf 0).writeV vf (flagByte g.hit)).show g.display

theorem State.drawn_vf (s : State) (g : Drawing) : (s.drawn g).readV 15 = flagByte g.hit :=
  (State.readV_writeV _ vf _ _).trans (if_pos rfl)

theorem State.drawn_readV_of_ne (s : State) (g : Drawing) {r : Reg} (hr : r ≠ 15) : (s.drawn g).readV r = s.readV r :=
  ((State.readV_writeV _ vf _ _).trans (if_neg hr)).trans ((s.readV_writeV vf 0 r).trans (if_neg hr))

theorem State.drawn_keeps (s : State) (g : Drawing) : Keeps [.v, .display, .result] s (s.drawn g) :=
  (((s.writeV_keeps _ _).trans (State.writeV_keeps _ _ _)).mono (by simp)).trans
    ((State.show_keeps _ _).mono (by simp))

/-- DRW with its sprite bytes in memory flips the pixels whose sprite bit is 1 (R102, R103). -/
theorem exec_drw_of_le (hb : n.val = 0 ∨ s.i.toNat + n.val ≤ Config.addrMax + 1) :
    ∃ g, exec (.drw x y n) s = .next (s.drawn g) ∧ Flips (spriteSet s x y n) { display := s.display, hit := false } g := by
  have hlen : (s.readBlock s.i.toNat n.val).length ≤ 32 := by rw [State.length_readBlock]; omega
  refine ⟨_, ?_, spritePixels_eq_spriteSet s x y n ▸ flips_drawRows _ _ _ _ hlen _⟩
  simp only [exec, execDrw, firstBad_eq_none.2 hb, State.drawn]

theorem exec_drw_of_gt (hn : n.val ≠ 0) (hb : Config.addrMax < s.i.toNat + n.val - 1) : exec (.drw x y n) s =
    .next (s.raiseFault (.drw x y n) .dataOutOfBounds (BitVec.ofNat 16 (max s.i.toNat 0x1000))) := by
  have hbad : firstBad s.i.toNat n.val = some (max s.i.toNat 0x1000) :=
    firstBad_eq_some.2 ⟨hn, by omega, rfl⟩
  simp only [exec, execDrw, hbad]

/-- Flipping the set of the sprite's bits is XOR with the sprite bit. -/
theorem Flips.pixel_eq_bne {g g' : Drawing} (hg : Flips (spriteSet s x y n) g g') (r : Fin 32) (c : Fin 64) :
    Display.pixel g'.display r c = (Display.pixel g.display r c != spriteBit s x y n r c) := by
  cases hbit : spriteBit s x y n r c with
  | true => rw [hg.flipped r c hbit, Bool.bne_true]
  | false => rw [hg.kept r c (by simp [spriteSet, hbit]), Bool.bne_false]

section
variable {g : Drawing} (hg : Flips (spriteSet s x y n) { display := s.display, hit := false } g)
include hg

/-- The draw starts with no collision, so one is a sprite bit on a pixel that was on (R102). -/
theorem Flips.hit_iff : g.hit = true ↔ ∃ r c, spriteBit s x y n r c = true ∧ Display.pixel s.display r c = true :=
  hg.hit.trans (or_iff_right Bool.false_ne_true)

theorem Flips.vf_of_collision (h : ∃ r c, spriteBit s x y n r c = true ∧ Display.pixel s.display r c = true) :
    (s.drawn g).readV 15 = 1 :=
  (s.drawn_vf g).trans (if_pos (hg.hit_iff.2 h))

theorem Flips.vf_of_no_collision
    (h : ∀ r c, spriteBit s x y n r c = true → Display.pixel s.display r c = false) : (s.drawn g).readV 15 = 0 := by
  refine (s.drawn_vf g).trans (if_neg fun hhit => ?_)
  obtain ⟨r, c, hbit, hon⟩ := hg.hit_iff.1 hhit
  exact Bool.false_ne_true ((h r c hbit).symm.trans hon)

end

/-- A draw whose coordinates are not in VF leaves the sprite bits as they were: they do not depend on the display. -/
theorem State.drawn_spriteBit (g : Drawing) (hx : x ≠ 15) (hy : y ≠ 15) :
    spriteBit (s.drawn g) x y n = spriteBit s x y n := by
  unfold spriteBit
  rw [s.drawn_readV_of_ne g hx, s.drawn_readV_of_ne g hy]
  rfl

end

/-! ### The obligations -/

/-- Settles O39: the drawing flips the pixels with a sprite bit where the bytes are in memory, the raised fault where they
are not. -/
theorem drawXorsSpriteAndReportsCollision : Obligations.DrawXorsSpriteAndReportsCollision := by
  refine fun x y n => ⟨encodes_encode (.drw x y n), rfl, fun s => ⟨fun hb => ?_, fun hn hb => ?_⟩⟩
  · obtain ⟨g, hexec, hg⟩ := exec_drw_of_le (s := s) (x := x) (y := y) (n := n) (by rw [Config.addrMax]; omega)
    exact ⟨_, hexec, hg.pixel_eq_bne, hg.vf_of_collision, hg.vf_of_no_collision,
      fun r hr => s.drawn_readV_of_ne g hr, rfl, (s.drawn_keeps g).1⟩
  · exact ⟨_, exec_drw_of_gt hn hb, raised_raiseFault s (.drw x y n) .dataOutOfBounds _⟩

/-- Settles O40: two flips of the same pixels cancel, since the second draw has the first one's sprite bits. -/
theorem spriteXorLaws : Obligations.SpriteXorLaws := by
  refine ⟨fun s t h r c => ?_, fun x y n s t u hx hy hb hst htu => ?_, fun x y n s t hb hst => ?_⟩
  · cases h
    exact Display.pixel_clear r c
  · obtain ⟨g, hexec, hg⟩ := exec_drw_of_le (x := x) (y := y) hb
    cases hst.symm.trans hexec
    obtain ⟨g', hexec', hg'⟩ := exec_drw_of_le (s := s.drawn g) (x := x) (y := y) (n := n) hb
    cases htu.symm.trans hexec'
    refine Display.ext_pixel fun r c => ?_
    calc Display.pixel g'.display r c
      _ = (Display.pixel g.display r c != spriteBit (s.drawn g) x y n r c) := hg'.pixel_eq_bne r c
      _ = ((Display.pixel s.display r c != spriteBit s x y n r c) != spriteBit s x y n r c) := by
        rw [State.drawn_spriteBit g hx hy, hg.pixel_eq_bne]
      _ = Display.pixel s.display r c := by simp
  · obtain ⟨g, hexec, hg⟩ := exec_drw_of_le (x := x) (y := y) hb
    cases hst.symm.trans hexec
    exact ⟨fun ⟨r, c, hbit⟩ hon => hg.vf_of_collision ⟨r, c, hbit, hon r c hbit⟩,
      hg.vf_of_no_collision⟩

/-- Settles O38: the new display is the cleared one, and showing it writes nothing else. -/
theorem clearTurnsEveryPixelOff : Obligations.ClearTurnsEveryPixelOff :=
  ⟨encodes_encode .cls, fun s => ⟨_, rfl, Display.pixel_clear, rfl, (s.show_keeps _).1⟩⟩

end Sys2Proof.Machine
end

section
/-! PROOF. Keypad and timer instructions (R106 to R112, R122): the key a register value selects, the lowest pressed key, and
the moves between a register and a timer. -/

namespace Sys2Proof.Machine

open Spec

/-! ### The key that a value selects (R106) -/

section
variable {cfg : Config} {v : Byte}

/-- The low nibble of a byte as a number. -/
theorem lowNibble_toNat (b : Byte) : (b.extractLsb' 0 4).toNat = b.toNat % 16 := by
  rw [BitVec.extractLsb'_toNat, Nat.shiftRight_zero]

/-- A value up to 15 selects its own key; above 15 MASK selects by the low nibble. -/
theorem keyNumber_eq_some {k : Fin 16}
    (h : v.toNat = k.val ∨ cfg.keyIndexPolicy = .mask ∧ 0x0F < v.toNat ∧ v.toNat % 16 = k.val) :
    keyNumber cfg v = some k := by
  rcases h with hk | ⟨hmask, hv, hk⟩
  · have hlt : v.toNat < 16 := by omega
    rw [keyNumber, dif_pos hlt]
    exact congrArg some (Fin.ext hk)
  · have hge : ¬ v.toNat < 16 := by omega
    rw [keyNumber, dif_neg hge, hmask]
    exact congrArg some (Fin.ext ((lowNibble_toNat v).trans hk))

theorem keyNumber_eq_none (hfault : cfg.keyIndexPolicy = .fault) (hv : 0x0F < v.toNat) : keyNumber cfg v = none := by
  have hge : ¬ v.toNat < 16 := by omega
  rw [keyNumber, dif_neg hge, hfault]

end

/-! ### The lowest pressed key (R109) -/

section
variable {keys : Keys}

/-- The search from `k` finds `j` exactly when `j` is the first pressed key of its range. -/
theorem lowestKeyFrom_eq_some {k fuel j : Nat} : lowestKeyFrom keys k fuel = some j ↔
    k ≤ j ∧ j < k + fuel ∧ keys.getD j false = true ∧ ∀ i, k ≤ i → i < j → keys.getD i false = false := by
  induction fuel generalizing k with
  | zero =>
    simp only [lowestKeyFrom, reduceCtorEq, false_iff]
    omega
  | succ fuel ih =>
    rw [lowestKeyFrom]
    split
    · next hk =>
      constructor
      · rintro ⟨⟩
        exact ⟨le_rfl, by omega, hk, fun i _ _ => by omega⟩
      · rintro ⟨hle, -, -, hbelow⟩
        by_contra hne
        have hoff := hbelow k le_rfl (lt_of_le_of_ne hle fun e => hne (congrArg some e))
        exact Bool.false_ne_true (hoff.symm.trans hk)
    · next hk =>
      rw [ih]
      constructor
      · rintro ⟨hle, hlt, hj, hbelow⟩
        refine ⟨by omega, by omega, hj, fun i hi hij => ?_⟩
        by_cases hik : i = k
        · simpa [hik] using hk
        · exact hbelow i (by omega) hij
      · rintro ⟨hle, hlt, hj, hbelow⟩
        have hne : k ≠ j := fun e => hk (e ▸ hj)
        exact ⟨by omega, by omega, hj, fun i hi hij => hbelow i (by omega) hij⟩

theorem getD_key (k : Fin 16) : keys.getD k.val false = keys[k] := by
  simp [Vector.getD]

theorem lowestKey_eq_some {k : Fin 16} (hk : keys[k] = true) (hbelow : ∀ j : Fin 16, j.val < k.val → keys[j] = false) :
    lowestKey keys = some k.val :=
  lowestKeyFrom_eq_some.2 ⟨Nat.zero_le _, by omega, (getD_key k).trans hk,
    fun i _ hi => (getD_key ⟨i, by omega⟩).trans (hbelow ⟨i, by omega⟩ hi)⟩

theorem lowestKey_eq_none (h : ∀ k : Fin 16, keys[k] = false) : lowestKey keys = none := by
  refine Option.eq_none_iff_forall_ne_some.2 fun j hj => ?_
  obtain ⟨-, hlt, hon, -⟩ := lowestKeyFrom_eq_some.1 hj
  exact Bool.false_ne_true ((h ⟨j, by omega⟩).symm.trans ((getD_key ⟨j, by omega⟩).symm.trans hon))

end

/-! ### What the key instructions do -/

section
variable {s : State} {x : Reg} {k : Fin 16}

theorem exec_skp_of_key (h : keyNumber s.cfg (s.readV x) = some k) : exec (.skp x) s = .next (s.skipIf s.keys[k]) := by
  simp only [exec, execSkp, h]

theorem exec_sknp_of_key (h : keyNumber s.cfg (s.readV x) = some k) :
    exec (.sknp x) s = .next (s.skipIf (!s.keys[k])) := by
  simp only [exec, execSknp, h]

theorem exec_skp_of_no_key (h : keyNumber s.cfg (s.readV x) = none) : exec (.skp x) s =
    .next (s.raiseFault (.skp x) .keyOutOfRange (BitVec.ofNat 16 (s.readV x).toNat)) := by
  simp only [exec, execSkp, h, byteWord, BitVec.ofNat_toNat]

theorem exec_sknp_of_no_key (h : keyNumber s.cfg (s.readV x) = none) : exec (.sknp x) s =
    .next (s.raiseFault (.sknp x) .keyOutOfRange (BitVec.ofNat 16 (s.readV x).toNat)) := by
  simp only [exec, execSknp, h, byteWord, BitVec.ofNat_toNat]

theorem State.skipIf_not_pc (s : State) (c : Bool) : (s.skipIf (!c)).pc = if c = true then s.pc else s.pc + 2 := by
  cases c <;> rfl

theorem exec_ldVxK_of_lowest {n : Nat} (h : lowestKey s.keys = some n) :
    exec (.ldVxK x) s = .next (s.writeV x (BitVec.ofNat 8 n)) := by
  simp only [exec, execLdVxK, h]

theorem exec_ldVxK_of_none (h : ∀ k : Fin 16, s.keys[k] = false) : exec (.ldVxK x) s = .next (s.setPc (s.pc - 2)) := by
  simp only [exec, execLdVxK, lowestKey_eq_none h]

/-- A key number as a register byte keeps its value. -/
theorem keyByte_toNat (k : Fin 16) : (BitVec.ofNat 8 k.val).toNat = k.val :=
  Nat.mod_eq_of_lt (by omega)

/-- The fetch moves `pc` on and the repeat moves it back: only the result has changed. -/
theorem State.fetched_setPc_back_onlyChanges (s : State) : OnlyChanges [.result] s (s.fetched.setPc (s.fetched.pc - 2)) :=
  (s.fetched_keeps.trans ((State.setPc_keeps _ _).mono (by simp))).onlyChanges_tail (BitVec.add_sub_cancel _ _)

/-- A step on a waiting state runs its Fx0A, which moves `pc` back (R109, R133). -/
theorem step_of_waiting (h : s.beginStep.Waiting) :
    step s = .next (s.beginStep.fetched.setPc (s.beginStep.fetched.pc - 2)) := by
  obtain ⟨hf, hk, ⟨x, hd⟩, hkeys⟩ := h
  calc step s
    _ = exec (.ldVxK x) s.beginStep.fetched := cycle_of_instr (s.beginStep.fetches_fetchWord hf hk) hd
    _ = _ := exec_ldVxK_of_none hkeys

end

/-! ### The buzzer (R122) -/

theorem State.buzzerActive_iff (s : State) : s.buzzerActive = true ↔ 0 < s.st.toNat := decide_eq_true_iff

/-! ### The obligations -/

/-- Settles O41: a selected key is a skip on its state, and where no key is selected both raise the fault. -/
theorem keySkips : Obligations.KeySkips := by
  refine fun x => ⟨encodes_encode (.skp x), encodes_encode (.sknp x), rfl, fun s =>
    ⟨fun k hk => ?_, fun hfault hv => ?_⟩⟩
  · have hkey := keyNumber_eq_some hk
    exact ⟨⟨_, exec_skp_of_key hkey, s.skipIf_pc _, (s.skipIf_keeps _).1⟩,
      ⟨_, exec_sknp_of_key hkey, s.skipIf_not_pc _, (s.skipIf_keeps _).1⟩⟩
  · have hnone := keyNumber_eq_none hfault hv
    exact ⟨⟨_, exec_skp_of_no_key hnone, raised_raiseFault s (.skp x) .keyOutOfRange _⟩,
      ⟨_, exec_sknp_of_no_key hnone, raised_raiseFault s (.sknp x) .keyOutOfRange _⟩⟩

/-- Settles O42: the search finds the lowest pressed key or none, and the repeat undoes the fetch's advance of `pc`. -/
theorem keyWaitTakesLowestOrRepeats : Obligations.KeyWaitTakesLowestOrRepeats := by
  refine ⟨fun x => ⟨encodes_encode (.ldVxK x), fun s => ⟨fun k hk hbelow => ?_, fun hnone => ?_⟩⟩, fun s hwait => ?_⟩
  · refine ⟨_, exec_ldVxK_of_lowest (lowestKey_eq_some hk hbelow), fun r => ?_, (s.writeV_keeps _ _).1⟩
    rw [State.readV_writeV, apply_ite BitVec.toNat, keyByte_toNat]
  · exact ⟨_, exec_ldVxK_of_none hnone, rfl, (s.setPc_keeps _).1⟩
  · have hpc : (s.beginStep.fetched.setPc (s.beginStep.fetched.pc - 2)).pc = s.pc := by simp
    exact ⟨_, step_of_waiting hwait, hpc, rfl, by simp [State.fetchWord], s.beginStep.fetched_setPc_back_onlyChanges⟩

/-- Settles O43: each move is one write of a register or a timer, and the buzzer follows ST. -/
theorem timerMoves : Obligations.TimerMoves := by
  refine fun x => ⟨encodes_encode (.ldVxDt x), encodes_encode (.ldDtVx x), encodes_encode (.ldStVx x), fun s =>
    ⟨s.buzzerActive_iff, ?_, ?_, ?_⟩⟩
  · exact ⟨_, rfl, s.readV_writeV x s.dt, (s.writeV_keeps _ _).1⟩
  · exact ⟨_, rfl, rfl, (s.setDt_keeps _).1⟩
  · exact ⟨_, rfl, rfl, (s.setSt (s.readV x)).buzzerActive_iff, (s.setSt_keeps _).1⟩

end Sys2Proof.Machine
end

section
/-! PROOF. Faults and ticks (R113 to R120): the condition of every fault, what a faulting step leaves alone, and the ticks. -/

namespace Sys2Proof.Machine

open Spec

/-! ### The conditions of the fault table (R114) -/

/-- Instruction `i` reads or writes `count` bytes of memory from `I` (R96 to R98, R103). -/
def Transfers (i : Instr) (count : Nat) : Prop :=
  (∃ x y n, i = .drw x y n ∧ count = n.val) ∨ (∃ x, i = .ldB x ∧ count = 3) ∨
    (∃ x, i = .ldMemVx x ∧ count = x.val + 1) ∨ ∃ x, i = .ldVxMem x ∧ count = x.val + 1

/-- The own check of an instruction fails, with the kind and the detail of its fault (R114, R116). -/
inductive CheckFails (s : State) : Instr → FaultKind → Word → Prop where
  | underflow (hsp : s.sp = 0) : CheckFails s .ret .stackUnderflow 0
  | overflow {nnn : Addr} (hsp : s.sp = 15) : CheckFails s (.call nnn) .stackOverflow 15
  | data {i : Instr} {count : Nat} {d : Word} (hi : Transfers i count) (hpos : 0 < count)
      (hlast : 0xFFF < s.i.toNat + count - 1) (hd : d.toNat = max s.i.toNat 0x1000) : CheckFails s i .dataOutOfBounds d
  | key {i : Instr} {x : Reg} {d : Word} (hi : i = .skp x ∨ i = .sknp x) (hpolicy : s.cfg.keyIndexPolicy = .fault)
      (hv : 0x0F < (s.readV x).toNat) (hd : d.toNat = (s.readV x).toNat) : CheckFails s i .keyOutOfRange d

section
variable {s t : State} {i : Instr} {r : FaultRecord}

theorem CheckFails.of_firstBad {count bad : Nat} (hi : Transfers i count) (h : firstBad s.i.toNat count = some bad) :
    CheckFails s i .dataOutOfBounds (BitVec.ofNat 16 bad) := by
  obtain ⟨hcount, hlast, rfl⟩ := firstBad_eq_some.1 h
  rw [Config.addrMax] at hlast
  exact .data hi (by omega) (by omega) (Nat.mod_eq_of_lt (by rw [Config.addrMax]; omega))

/-- A value selects no key only above 15 and under FAULT (R106). -/
theorem of_keyNumber_eq_none {cfg : Config} {v : Byte} (h : keyNumber cfg v = none) :
    cfg.keyIndexPolicy = .fault ∧ 0x0F < v.toNat := by
  unfold keyNumber at h
  split at h
  · cases h
  · next hv =>
    split at h
    · next hpolicy => exact ⟨hpolicy, by omega⟩
    · cases h

theorem CheckFails.of_keyNumber {x : Reg} (hi : i = .skp x ∨ i = .sknp x) (h : keyNumber s.cfg (s.readV x) = none) :
    CheckFails s i .keyOutOfRange (byteWord (s.readV x)) := by
  obtain ⟨hpolicy, hv⟩ := of_keyNumber_eq_none h
  exact .key hi hpolicy hv (byteWord_toNat _)

/-- The condition depends on `sp`, `I`, the registers and the configuration only. -/
theorem CheckFails.congr {k : FaultKind} {d : Word} (h : CheckFails s i k d) (hsp : t.sp = s.sp) (hi : t.i = s.i)
    (hv : ∀ x, t.readV x = s.readV x) (hcfg : t.cfg = s.cfg) : CheckFails t i k d := by
  cases h with
  | underflow h => exact .underflow (hsp.trans h)
  | overflow h => exact .overflow (hsp.trans h)
  | data hcount hpos hlast hd => exact .data hcount hpos (hi ▸ hlast) (hi ▸ hd)
  | key hx hpolicy hlarge hd =>
    exact .key hx (hcfg ▸ hpolicy) (by rwa [hv]) (by rwa [hv])

/-- An instruction that faults raises the fault of its own check, which failed. -/
theorem checkFails_of_exec (hs : s.fault = none) (h : exec i s = .next t) (hr : t.fault = some r) :
    ∃ k d, CheckFails s i k d ∧ t = s.raiseFault i k d := by
  have hkind := faultKind_of_exec hs h hr
  cases i with
  | ret =>
    by_cases hsp : s.sp = 0
    · cases h.symm.trans (exec_ret_of_empty hsp)
      exact ⟨_, _, .underflow hsp, rfl⟩
    · cases h.symm.trans (exec_ret_of_ne hsp)
      cases hs.symm.trans hr
  | call nnn =>
    by_cases hsp : s.sp = 15
    · cases h.symm.trans (exec_call_of_full hsp)
      exact ⟨_, _, .overflow hsp, rfl⟩
    · cases h.symm.trans (exec_call_of_ne hsp)
      cases hs.symm.trans hr
  | drw _ _ _ | ldB _ | ldMemVx _ | ldVxMem _ =>
    simp only [exec, execDrw, execLdB, execLdMemVx, execLdVxMem] at h
    split at h
    · next hbad =>
      cases h
      exact ⟨_, _, .of_firstBad (by simp [Transfers]) hbad, rfl⟩
    · cases h
      simp [hs] at hr
  | skp _ | sknp _ =>
    simp only [exec, execSkp, execSknp] at h
    split at h
    · next hkey =>
      cases h
      exact ⟨_, _, .of_keyNumber (by simp) hkey, rfl⟩
    · cases h
      simp [hs] at hr
  | _ => cases hkind

theorem State.fetchFault_eq_some {k : FaultKind} (h : s.fetchFault = some k) :
    k = .fetchOutOfBounds ∧ 0xFFF < s.pc.toNat + 1 ∨
    k = .misalignedFetch ∧ s.pc.toNat + 1 ≤ 0xFFF ∧ s.cfg.fetchAlignment = .strict ∧ s.pc.toNat % 2 = 1 := by
  unfold State.fetchFault at h
  split at h
  · next hpc => cases h; exact .inl ⟨rfl, hpc⟩
  · next hpc =>
    split at h
    · next hodd => cases h; exact .inr ⟨rfl, Nat.not_lt.1 hpc, hodd⟩
    · cases h

/-- The fault of a step: of a fetch check, of the decoder, or of the decoded instruction's own check (R118). -/
theorem step_fault_cases (hs : s.fault = none) (h : step s = .next t) (hr : t.fault = some r) :
    (∃ k, s.fetchFault = some k ∧ r = { kind := k, addr := s.pc, word := none, detail := s.pc }) ∨
    (∃ w, Fetches s.beginStep w ∧ decode s.cfg.admitGk w = .unrecognized ∧
      r = { kind := .unrecognizedInstruction, addr := s.pc, word := some w, detail := w }) ∨
    ∃ w i k d, Fetches s.beginStep w ∧ decode s.cfg.admitGk w = .instr i ∧ CheckFails s i k d ∧
      r = { kind := k, addr := s.pc, word := some w, detail := d } := by
  have hs' : s.beginStep.fault = none := s.beginStep_fault.trans hs
  cases hk : s.fetchFault with
  | some k =>
    obtain ⟨u, hu, hfault, -⟩ := step_of_fetchFault hs hk
    cases h.symm.trans hu
    exact .inl ⟨k, rfl, Option.some.inj (hr.symm.trans hfault)⟩
  | none =>
    have hw := s.beginStep.fetches_fetchWord hs' (s.beginStep_fetchFault.trans hk)
    cases hd : decode s.beginStep.cfg.admitGk s.beginStep.fetchWord with
    | unrecognized =>
      cases h.symm.trans (cycle_of_unrecognized hw hd)
      rw [State.takeFault_fault, State.beginStep_pc] at hr
      exact .inr (.inl ⟨_, hw, by rwa [State.beginStep_cfg] at hd, (Option.some.inj hr).symm⟩)
    | instr i =>
      obtain ⟨k, d, hcheck, rfl⟩ :=
        checkFails_of_exec (s := s.beginStep.fetched) hs' ((cycle_of_instr hw hd).symm.trans h) hr
      obtain ⟨hword, -⟩ := Laws.decode_eq_instr.1 hd
      rw [State.raiseFault_fetched, State.takeFault_fault, State.beginStep_pc, hword] at hr
      exact .inr (.inr ⟨_, i, k, d, hw, by rwa [State.beginStep_cfg] at hd,
        hcheck.congr (by simp) (by simp) (by simp) (by simp), (Option.some.inj hr).symm⟩)

end

/-! ### Ticks (R120) -/

theorem State.tickN_keeps (n : Nat) (s : State) : Keeps [.dt, .st] s (State.tickN n s) :=
  ⟨fun p hp => by cases p <;> simp_all [Part.Same], fun _ => s.tickN_mem n⟩

/-! ### The obligations -/

/-- Settles O13: the fault is of a fetch check, of the decoder or of an instruction's own check, each of which failed. -/
theorem faultRecordsFollowTheTable : Obligations.FaultRecordsFollowTheTable := by
  intro s t r hs h hr
  rcases step_fault_cases hs h hr with ⟨k, hk, rfl⟩ | ⟨w, hw, hd, rfl⟩ | ⟨w, i, k, d, hw, hdecode, hcheck, rfl⟩
  · rcases State.fetchFault_eq_some hk with ⟨rfl, hpc⟩ | ⟨rfl, hpc, hstrict, hodd⟩
    · exact ⟨rfl, rfl, rfl, rfl, rfl, hpc⟩
    · exact ⟨rfl, rfl, rfl, rfl, rfl, hpc, hstrict, hodd⟩
  · exact ⟨rfl, rfl, rfl, w, hw, rfl, rfl, hd⟩
  · cases hcheck with
    | underflow hsp => exact ⟨rfl, rfl, rfl, w, hw, rfl, hdecode, hsp, rfl⟩
    | overflow hsp => exact ⟨rfl, rfl, rfl, w, _, hw, rfl, hdecode, hsp, rfl⟩
    | data hi hpos hlast hd => exact ⟨rfl, rfl, rfl, w, i, _, hw, rfl, hdecode, hi, hpos, hlast, hd⟩
    | key hi hpolicy hv hd => exact ⟨rfl, rfl, rfl, w, i, _, hw, rfl, hdecode, hi, hpolicy, hv, hd⟩

/-- Settles O12: of the outcomes of a step of an unfaulted core only the taken fault ends faulted, and O11 says what the
next step does. -/
theorem faultsArePrecise : Obligations.FaultsArePrecise := by
  intro s t hs h hfaulted
  obtain ⟨r, hr⟩ := Option.ne_none_iff_exists'.1 hfaulted
  obtain ⟨-, u, hu, hur, -, hsame⟩ := faultedCoreAbsorbs t r hr
  refine ⟨?_, u, hu, hur.trans hr.symm, hsame⟩
  rcases step_cases s with ⟨r', hr', -⟩ | ⟨-, k, w, d, h'⟩ | ⟨-, w, i, t', -, -, h', hc⟩
  · cases hs.symm.trans hr'
  · cases h.symm.trans h'
    exact (State.takeFault_keeps _ _ _ _).1
  · cases h.symm.trans h'
    exact absurd (hc.fault.trans (s.beginStep_fault.trans hs)) hfaulted

/-- Settles O44: the ticks count down on an unfaulted core, and a faulted one ignores each of them. -/
theorem ticksCountDownToZero : Obligations.TicksCountDownToZero := by
  refine fun n s => ⟨rfl, fun hs => ?_, fun hfaulted => ?_⟩
  · obtain ⟨hdt, hst⟩ := State.tickN_timers hs n
    exact ⟨hdt, hst, (State.tickN_keeps n s).1⟩
  · obtain ⟨r, hr⟩ := Option.ne_none_iff_exists'.1 hfaulted
    exact State.tickN_of_fault hr n

end Sys2Proof.Machine
end

section
/-! PROOF. Loading a program (R130, R131): the answers of `load`, what a successful one leaves in the state, and that a step
ends the time for loading. -/

namespace Sys2Proof.Machine

/-! ### The answers of `load` -/

section
variable {s t : State} {bytes : List Byte}

/-- A second load, and a load after a step, are refused (R131). -/
theorem State.load_of_not_constructed (h : s.lifecycle ≠ .constructed) (bytes : Option (List Byte)) :
    s.load bytes = .error .notAdmitted := if_pos h

theorem State.load_none (h : s.lifecycle = .constructed) : s.load none = .error .io := if_neg (not_not_intro h)

theorem State.load_of_gt (h : s.lifecycle = .constructed) (hlen : 3584 < bytes.length) :
    s.load (some bytes) = .error .tooLarge := (if_neg (not_not_intro h)).trans (if_pos hlen)

/-- The state after a load of `bytes` that succeeds (R130). -/
def State.loaded (s : State) (bytes : List Byte) : State :=
  { s.writeBlock Config.progOrigin bytes with lifecycle := .loaded }

theorem State.load_of_le (h : s.lifecycle = .constructed) (hlen : bytes.length ≤ 3584) :
    s.load (some bytes) = .ok (s.loaded bytes) :=
  (if_neg (not_not_intro h)).trans (if_neg (Nat.not_lt.2 hlen))

/-! ### The state after a load -/

theorem State.loaded_lifecycle (s : State) (bytes : List Byte) : (s.loaded bytes).lifecycle = .loaded := rfl

theorem State.loaded_readByte (hm : Memory.wf s.cfg s.mem = true) (bytes : List Byte) (a : Nat) :
    (s.loaded bytes).readByte a =
      if 0x200 ≤ a ∧ a < 0x200 + bytes.length then bytes.getD (a - 0x200) 0 else s.readByte a :=
  s.readByte_writeBlock (Memory.rising_of_wf hm) Config.progOrigin bytes a

theorem State.setLifecycle_keeps (s : State) (l : Lifecycle) : Keeps [.ports] s { s with lifecycle := l } :=
  ⟨fun p hp => by cases p <;> simp_all [Part.Same, State.readV, State.readByte], fun _ => rfl⟩

theorem State.loaded_keeps (s : State) (bytes : List Byte) : Keeps [.mem, .ports] s (s.loaded bytes) :=
  ((s.writeBlock_keeps _ bytes).mono (by simp)).trans ((State.setLifecycle_keeps _ .loaded).mono (by simp))

/-! ### The state after a step -/

/-- Taking the input sets the lifecycle to running, and no outcome of the cycle changes that (R131). -/
theorem lifecycle_of_step (h : step s = .next t) : t.lifecycle = .running := by
  rcases step_cases s with ⟨r, -, h'⟩ | ⟨-, k, w, d, h'⟩ | ⟨-, w, i, u, -, -, h', hc⟩ <;> cases h.symm.trans h'
  · exact s.beginStep_lifecycle
  · exact s.beginStep_lifecycle
  · obtain ⟨hlifecycle, -⟩ := hc.same .ports (Instr.not_mem_writes (by simp))
    exact hlifecycle.trans s.beginStep_lifecycle

end

/-- Settles O46: by the number of bytes, and since a loaded or running core is no longer freshly constructed. -/
theorem loadCopiesOrFails : Obligations.LoadCopiesOrFails := by
  refine fun s hm => ⟨fun hnew => ⟨State.load_none hnew, fun bytes => ⟨State.load_of_gt hnew, fun hlen => ?_⟩⟩,
    fun t ht => State.load_of_not_constructed ?_⟩
  · exact ⟨_, State.load_of_le hnew hlen, State.loaded_readByte hm bytes, (s.loaded_keeps bytes).1,
      State.load_of_not_constructed (by simp [State.loaded_lifecycle])⟩
  · simp [lifecycle_of_step ht]

end Sys2Proof.Machine
end

section
/-! PROOF. The parked core (R133): a jump to itself comes back to where it was fetched. -/

namespace Sys2Proof.Machine

open Spec

section
variable {s t : State}

/-- The target of a jump to an address inside the space is that address (R53, R72). -/
theorem addrWord_setWidth {a : Word} (ha : a.toNat ≤ 0xFFF) : addrWord (a.setWidth 12) = a :=
  BitVec.eq_of_toNat_eq (by rw [addrWord_toNat, BitVec.toNat_setWidth]; omega)

/-- The word 1nnn is 0x1000 and its address (R54). -/
theorem encode_jp_eq_add (nnn : Addr) : encode (.jp nnn) = 0x1000#16 + addrWord nnn := by
  refine BitVec.eq_of_toNat_eq ?_
  rw [encode, encNNN, BitVec.toNat_append, ← Nat.shiftLeft_add_eq_or_of_lt nnn.isLt, BitVec.toNat_add, addrWord_toNat,
    Nat.shiftLeft_eq, BitVec.toNat_ofNat, BitVec.toNat_ofNat]
  omega

/-- Whether a core is parked depends on its fault, configuration, `pc` and memory only. -/
theorem State.Parked.congr (h : s.Parked) (hsame : OnlyChanges [.dt, .st, .result, .ports] s t) : t.Parked := by
  have hfault : t.fault = s.fault := hsame .fault (by simp)
  have hcfg : t.cfg = s.cfg := hsame .cfg (by simp)
  have hpc : t.pc = s.pc := hsame .pc (by simp)
  have hmem : ∀ a, t.readByte a = s.readByte a := hsame .mem (by simp)
  simpa only [State.Parked, State.fetchFault, State.fetchWord, hfault, hcfg, hpc, hmem] using h

theorem State.Parked.fault_eq_none (h : s.Parked) : s.fault = none := h.1

theorem State.Parked.beginStep (h : s.Parked) : s.beginStep.Parked :=
  h.congr fun p hp => s.beginStep_keeps.same p (by simp_all)

/-- A parked core fetches the jump to its own `pc`. -/
theorem State.Parked.fetches (h : s.Parked) : Fetches s (encode (.jp (s.pc.setWidth 12))) := by
  obtain ⟨hf, hk, hw, hpc⟩ := h
  rw [encode_jp_eq_add, addrWord_setWidth hpc, ← hw]
  exact s.fetches_fetchWord hf hk

/-- A step on a parked core undoes the fetch's advance of `pc` by the jump (R72, R133). -/
theorem step_of_parked (h : s.Parked) : step s = .next (s.beginStep.fetched.setPc s.pc) := by
  have ⟨_, _, _, hpc⟩ := h
  calc step s
    _ = exec (.jp (s.beginStep.pc.setWidth 12)) s.beginStep.fetched := step_of_fetches_encode h.beginStep.fetches rfl
    _ = .next (s.beginStep.fetched.setPc (addrWord (s.beginStep.pc.setWidth 12))) := rfl
    _ = .next (s.beginStep.fetched.setPc s.pc) := by rw [s.beginStep_pc, addrWord_setWidth hpc]

theorem State.parkedStep_onlyChanges (s : State) :
    OnlyChanges [.dt, .st, .result, .ports] s (s.beginStep.fetched.setPc s.pc) :=
  (s.beginStep_fetched_keeps.trans ((State.setPc_keeps _ _).mono (by simp))).onlyChanges_tail rfl

end

/-- Settles O50: the jump leads back to its own address, and what else the step changes does not unpark the core. -/
theorem parkedCoreStaysParked : Obligations.ParkedCoreStaysParked := by
  intro s h
  have hsame := s.parkedStep_onlyChanges
  exact ⟨_, step_of_parked h, h.congr hsame, (h.congr hsame).fault_eq_none, hsame⟩

end Sys2Proof.Machine
end
